-- ==== Sys2Proof/Word.lean ====
section
/-! DEFINITION. The word types: bytes, 64-bit words and the 64-byte Command Word (spec/30_encoding.md R110). -/

namespace Sys2Proof

/-- One byte. -/
abbrev Byte := BitVec 8

/-- One 64-bit word of a Command Word, or an extended status. -/
abbrev Word := BitVec 64

/-- A Command Word: eight 64-bit words `W[0..7]`, 64 bytes in all (R110).  `w0..w2` are the protected
words, `w3..w5` the duplicate or auxiliary words, `w6`, `w7` the checksum fields (R111). -/
structure CmdWord where
  w0 : Word
  w1 : Word
  w2 : Word
  w3 : Word
  w4 : Word
  w5 : Word
  w6 : Word
  w7 : Word
deriving DecidableEq, Repr

/-- The all-zero Command Word: the reset value of `cmd` and `wire` (10_state.md R34). -/
def CmdWord.zero : CmdWord := ⟨0, 0, 0, 0, 0, 0, 0, 0⟩

end Sys2Proof
end

