-- ==== Sys2Proof/Config.lean ====
section
/-! DEFINITION. What an implementation fixes (00_scope.md R6-R13, 10_state.md R60-R63): the names whose
numeric codes a `Layout` assigns, the `Layout` record itself, the configuration record `cfg`, the
parameters, and the values the spec leaves open, which are constants without a body. -/

namespace Sys2Proof

/-- The run state (10_state.md R43): `dead` is the halted state of abort-hard. -/
inductive RunState where
  | running
  | dead
deriving DecidableEq, Repr

/-- The decode path of a token (10_state.md R38). -/
inductive Class where
  | read
  | write
  | control
deriving DecidableEq, Repr

/-- The progress stage last reported (10_state.md R37). -/
inductive Stage where
  | issued
  | queued
  | received
  | waitDev
deriving DecidableEq, Repr

/-- The status-array group of a slot (10_state.md R33). -/
inductive TokenType where
  | general
  | reserved
deriving DecidableEq, Repr

/-- The out-of-order replay policy (10_state.md R60, 43_timeout_ooo.md R380). -/
inductive OooPolicy where
  | off
  | quick
  | delayed
deriving DecidableEq, Repr

/-- The stage at which early commit fires (10_state.md R60, 42_status_decoder.md R302). -/
inductive CommitStage where
  | never
  | queued
  | received
  | waitDev
deriving DecidableEq, Repr

/-- The thirty-one command opcodes (30_encoding.md R131), in the table's order. -/
inductive Opcode where
  | null | getReg | putReg | reset | seqRead | pageRead | pageWrite | extRead | extWrite | trim
  | devStats | devPassthru | copy | fwNull | shutdown | startup | traceCtrl | test | seqAdvance
  | debugLog | extError | fwDownload | getParams | setParams | crashLog | testRead | testWrite
  | sataReinit | cancel | faultInject | diagnostic
deriving DecidableEq, Repr

/-- The fourteen failure codes of the status byte (30_encoding.md R142), in the table's order. -/
inductive StatusCode where
  | queued | received | pending | collision | exeError | xsumError | eccError | ooo | dupError
  | fieldError | illegalCmd | sequenced | devWarning | unknownHw
deriving DecidableEq, Repr

/-- The six named fault subtypes of an ILLEGAL_CMD extended status (30_encoding.md R149). -/
inductive FaultCode where
  | wepTimeout | xsum | ecc | cmdOffset | unknownCmd | fatal
deriving DecidableEq, Repr

/-- A field of a Command Word: `width` bits from bit `lo` of word `word`. -/
structure Field where
  word : Nat
  lo : Nat
  width : Nat
deriving DecidableEq, Repr

/-- The bit position and width of every field and every numeric code (00_scope.md R9): a parameter of the
block.  It is plain data; the default value is `Layout.reference` (Decode.lean), and what the block may rely
on is `Layout.admissible` (30_encoding.md R117). -/
structure Layout where
  /-- The header fields of word 0 (30_encoding.md R112). -/
  opc : Field
  slot : Field
  seq : Field
  dir : Field
  hwOnly : Field
  dupChk : Field
  dsize : Field
  msize : Field
  deallocV : Field
  deallocId : Field
  /-- `SRC` and `DST` (R113). -/
  src : Field
  dst : Field
  /-- The three 56-bit sub-fields (R114). -/
  aux0 : Field
  aux1 : Field
  aux2 : Field
  /-- The checksum fields (R111, R115). -/
  xsumLo : Field
  xsumHi : Field
  /-- The bits of the checksum that `W[5][62]` and `W[5][63]` hold, its MSBs (R115). -/
  msb0 : Nat
  msb1 : Nat
  /-- Word and bit of each polarity position (R116). -/
  polarity : List (Nat × Nat)
  /-- The status byte: lowest bit of the 5-bit `CODE`, and the bits `EXT`, `SODD`, `SUCC` (R140). -/
  stCodeLo : Nat
  stExt : Nat
  stSodd : Nat
  stSucc : Nat
  /-- The extended status: lowest bit of the two 32-bit sequence numbers `CUR_SEQ` and `MISS_SEQ` (R147). -/
  extCurLo : Nat
  extMissLo : Nat
  /-- The numeric codes: of the opcodes in the order of R131, of the failure codes in the order of R142, of the
  named fault subtypes in the order of R149. -/
  opcodes : List Byte
  statusCodes : List (BitVec 5)
  faultCodes : List Byte
deriving DecidableEq, Repr

/-- The timeouts of one class, per stage, in microseconds (10_state.md R61). -/
structure StageTable where
  queued : Nat
  received : Nat
  waitDev : Nat
deriving DecidableEq, Repr

/-- The configuration record `cfg` (10_state.md R60).  `cacheFlushMode` is opaque: no rule reads it
(20_memory.md R96). -/
structure Cfg where
  maxGeneric : Nat
  maxXsum : Nat
  maxWep : Nat
  maxEcc : Nat
  lostThresh : Nat
  lostMax : Nat
  tmoRead : StageTable
  tmoWrite : StageTable
  tmoControl : StageTable
  oooPolicy : OooPolicy
  oooQuickRead : Nat
  oooQuickWrite : Nat
  oooQuickControl : Nat
  commitStage : CommitStage
  rdbufFromStatus : Bool
  rdbufTracking : Bool
  rdbufRecoverMax : Nat
  noRetryTmoDealloc : Bool
  haltOnWriteError : Bool
  dupcheck : Bool
  cacheFlushMode : Nat
deriving DecidableEq, Repr

/-- The command filter as a parameter (00_scope.md R10).  `unknown` is the open parameter itself,
`Config.cmdFilter`, of which nothing is known; `denying l` is the filter that denies exactly the opcodes
in `l`, for an implementation (or a test) whose filter is known to be of that form. -/
inductive FilterPolicy where
  | unknown
  | denying (opcodes : List Byte)
deriving DecidableEq, Repr

/-- The parameters of the block (00_scope.md R6-R12) but `N`, which is the length of the slot table.
`r` is the number of reserved slots. -/
structure Params where
  r : Nat
  cmdBase : Nat
  statusBase : Nat
  extBase : Nat
  addrBits : Nat
  layout : Layout
  filter : FilterPolicy
  cfg : Cfg
deriving DecidableEq, Repr

/-- The test values of 10_state.md R60.  DESIGN CHOICE (notes/assumptions/3.md): the spec gives no default;
unsafe for a claim that starts at `State.reset`. -/
def Cfg.testValues : Cfg where
  maxGeneric := 3
  maxXsum := 2
  maxWep := 2
  maxEcc := 2
  lostThresh := 1000
  lostMax := 1
  tmoRead := ⟨1000, 2000, 4000⟩
  tmoWrite := ⟨1500, 3000, 6000⟩
  tmoControl := ⟨2000, 4000, 8000⟩
  oooPolicy := .quick
  oooQuickRead := 100
  oooQuickWrite := 150
  oooQuickControl := 200
  commitStage := .never
  rdbufFromStatus := true
  rdbufTracking := false
  rdbufRecoverMax := 3
  noRetryTmoDealloc := false
  haltOnWriteError := false
  dupcheck := true
  cacheFlushMode := 0

/-- The byte that device memory holds at an address nothing has written since power-on: unspecified, any
value (70_reset_and_hazards.md R442).  Free value (notes/assumptions/4.md). -/
opaque Config.powerOnByte : Nat → Byte

/-- The command filter, an open parameter (00_scope.md R10).  Free value (notes/assumptions/6.md). -/
opaque Config.cmdFilter : RunState → CmdWord → Bool

/-- The draw `ALLOC` makes among the free general slots when the state holds no draw (00_scope.md R13,
41_token_pool.md R241).  Free value (notes/assumptions/5.md). -/
opaque Config.freeDraw : Nat → Nat

/-- The Fletcher-128 function, an open parameter the block never computes (00_scope.md R8). -/
opaque Config.fletcher128 : List Byte → BitVec 128

end Sys2Proof
end

