-- ==== Sys2Proof/Syntax.lean ====
section
/-! DEFINITION. The instructions: one constructor per row of spec/opcode_table.json.  The thirty-one
command opcodes carry the fields of their Command Word (30_encoding.md R112-R116 and the packings of
40_cmdgen.md); the twelve host operations carry the arguments of 30_encoding.md R160. -/

namespace Sys2Proof

/-- The encoder's input record (40_cmdgen.md R170). -/
structure BuildReq where
  kind : Byte
  h2dLen : Nat
  d2hLen : Nat
  lba : BitVec 56
  count : BitVec 32
  reg : BitVec 56
  value : BitVec 56
  param : BitVec 32
  seqCount : Nat
  target : Byte
  cdb : List Byte
  rawOpcode : Byte
  rawSrc : BitVec 56
  rawDst : BitVec 56
  coreBuf : Option Byte
  wbuf0 : Option Byte
  wbuf1 : Option Byte
  wbuf2 : Option Byte
  msize : BitVec 2
  hwOnly : BitVec 1
  buddy : Option Nat
  reqTag : Nat
  hostLive : Bool
  quiet : Bool
deriving DecidableEq, Repr

/-- A request with every field absent or zero; a kind names the fields it uses over it. -/
def BuildReq.blank : BuildReq where
  kind := 0
  h2dLen := 0
  d2hLen := 0
  lba := 0
  count := 0
  reg := 0
  value := 0
  param := 0
  seqCount := 0
  target := 0
  cdb := []
  rawOpcode := 0
  rawSrc := 0
  rawDst := 0
  coreBuf := none
  wbuf0 := none
  wbuf1 := none
  wbuf2 := none
  msize := 0
  hwOnly := 0
  buddy := none
  reqTag := 0
  hostLive := false
  quiet := false

/-- The header fields the encoder writes at build (30_encoding.md R112), beside the opcode. -/
structure CmdHdr where
  dir : BitVec 2
  hwOnly : BitVec 1
  dupChk : BitVec 1
  dsize : BitVec 2
  msize : BitVec 2
deriving DecidableEq, Repr

/-- The fields finalize writes (30_encoding.md R112, R115; 40_cmdgen.md R225). -/
structure Stamp where
  slot : Byte
  seq : BitVec 32
  odd : BitVec 1
  dealloc : Option (BitVec 5)
  xsum : BitVec 128
deriving DecidableEq, Repr

/-- One constructor per row of spec/opcode_table.json.  A command carries its Command Word's fields: `h`
the header as built, then the fields of its SRC and DST, `st` the stamped fields.  `cmdReset` is the
device command RESET (R193), `opReset` the block's operation RESET (R440). -/
inductive Instr where
  -- command opcodes 0x00-0x1E
  | null (h : CmdHdr) (st : Stamp)
  | getReg (h : CmdHdr) (reg : BitVec 56) (st : Stamp)
  | putReg (h : CmdHdr) (value reg : BitVec 56) (st : Stamp)
  | cmdReset (h : CmdHdr) (st : Stamp)
  | seqRead (h : CmdHdr) (src dst : BitVec 56) (st : Stamp)
  | pageRead (h : CmdHdr) (lba : BitVec 56) (bcnt coreBuf : Byte) (st : Stamp)
  | pageWrite (h : CmdHdr) (wbuf0 bcnt wbuf1 wbuf2 : Byte) (lba : BitVec 56) (st : Stamp)
  | extRead (h : CmdHdr) (lba : BitVec 56) (bcnt coreBuf : Byte) (st : Stamp)
  | extWrite (h : CmdHdr) (wbuf0 bcnt wbuf1 wbuf2 : Byte) (lba : BitVec 56) (st : Stamp)
  | trim (h : CmdHdr) (lba : BitVec 56) (count : BitVec 32) (st : Stamp)
  | devStats (h : CmdHdr) (src dst : BitVec 56) (st : Stamp)
  | devPassthru (h : CmdHdr) (wbuf0 coreBuf : Byte) (cdb : BitVec 128) (st : Stamp)
  | copy (h : CmdHdr) (src dst : BitVec 56) (st : Stamp)
  | fwNull (h : CmdHdr) (src dst : BitVec 56) (st : Stamp)
  | shutdown (h : CmdHdr) (st : Stamp)
  | startup (h : CmdHdr) (src dst : BitVec 56) (st : Stamp)
  | traceCtrl (h : CmdHdr) (src dst : BitVec 56) (st : Stamp)
  | test (h : CmdHdr) (src dst : BitVec 56) (st : Stamp)
  | seqAdvance (h : CmdHdr) (seqCount : BitVec 56) (st : Stamp)
  | debugLog (h : CmdHdr) (src dst : BitVec 56) (st : Stamp)
  | extError (h : CmdHdr) (src dst : BitVec 56) (st : Stamp)
  | fwDownload (h : CmdHdr) (src dst : BitVec 56) (st : Stamp)
  | getParams (h : CmdHdr) (param : BitVec 32) (coreBuf : Byte) (st : Stamp)
  | setParams (h : CmdHdr) (wbuf0 : Byte) (param : BitVec 32) (st : Stamp)
  | crashLog (h : CmdHdr) (src dst : BitVec 56) (st : Stamp)
  | testRead (h : CmdHdr) (src dst : BitVec 56) (st : Stamp)
  | testWrite (h : CmdHdr) (src dst : BitVec 56) (st : Stamp)
  | sataReinit (h : CmdHdr) (st : Stamp)
  | cancel (h : CmdHdr) (target : Byte) (st : Stamp)
  | faultInject (h : CmdHdr) (src dst : BitVec 56) (st : Stamp)
  | diagnostic (h : CmdHdr) (src dst : BitVec 56) (st : Stamp)
  -- host operations 0x0-0xB
  | opReset
  | encBuild (req : BuildReq)
  | encFinalize (w : CmdWord) (odd : BitVec 1) (slot : Byte) (seq : BitVec 32) (dealloc : Option (BitVec 5)) (xsum : BitVec 128)
  | alloc (kind : Byte) (carry : Nat)
  | allocId (slot : Nat) (kind : Byte)
  | build (slot : Nat) (req : BuildReq)
  | issue (slot : Nat) (dealloc : Option (BitVec 5)) (xsum : BitVec 128) (now : Nat)
  | statusRefresh (t : TokenType) (now : Nat)
  | poll (slot now : Nat)
  | reissue (slot : Nat) (req : Option BuildReq) (now : Nat)
  | detach (slot : Nat)
  | release (slot : Nat)
deriving DecidableEq, Repr

/-- What stands on the block's port: the bytes of a host operation request `op, args`, or the 64
bytes of a Command Word.  These are the two formats of spec/opcode_table.json, HOSTOP and CMDWORD. -/
inductive Request where
  | hostOp (bytes : List Byte)
  | command (bytes : List Byte)
deriving DecidableEq, Repr

end Sys2Proof
end

