-- ==== Sys2Proof/WellFormed.lean ====
section
/-! DEFINITION. Which instructions the encoder can produce (40_cmdgen.md R171-R224), check by check. -/

namespace Sys2Proof

/-- The direction is not 3 (R119). -/
def CmdHdr.dirOk (h : CmdHdr) : Bool := h.dir != 3

/-- The metadata size code is not 3 (R121). -/
def CmdHdr.msizeOk (h : CmdHdr) : Bool := h.msize != 3

/-- A command with no data has `DSIZE = 0` (R120). -/
def CmdHdr.dsizeOk (h : CmdHdr) : Bool := h.dir != 0 || h.dsize == 0

/-- Every header the encoder builds (R119-R121). -/
def CmdHdr.ok (h : CmdHdr) : Bool := h.dirOk && h.msizeOk && h.dsizeOk

/-- A control kind that carries no data (40_cmdgen.md section 3). -/
def CmdHdr.noData (h : CmdHdr) : Bool := h.ok && h.dir == 0

/-- A device-to-host transfer of any size. -/
def CmdHdr.d2h (h : CmdHdr) : Bool := h.ok && h.dir == 2

/-- A host-to-device transfer of any size. -/
def CmdHdr.h2d (h : CmdHdr) : Bool := h.ok && h.dir == 1

/-- The transfer is a full page, 4096 bytes (R174, R120). -/
def CmdHdr.page (h : CmdHdr) : Bool := h.dsize == 3

/-- The block count of an extended transfer is `size / 512` (R122). -/
def CmdHdr.extCount (h : CmdHdr) (bcnt : Byte) : Bool := h.dsize != 3 && bcnt == (1 : Byte) <<< h.dsize.toNat

/-- Byte `k` of an embedded ATA command (R204). -/
def cdbByte (cdb : BitVec 128) (k : Nat) : Byte := (cdb >>> (8 * k)).setWidth 8

/-- One of the two passthrough forms; the 12-byte form is zero-padded (R201, R204). -/
def cdbFormOk (cdb : BitVec 128) : Bool :=
  cdbByte cdb 0 == 0x85 || (cdbByte cdb 0 == 0xA1 && (cdb >>> 96) == 0)

/-- The protocol is 3, 4 or 5 and the direction is the protocol's (R202, R203). -/
def cdbProtoOk (cdb : BitVec 128) (dir : BitVec 2) : Bool :=
  let p := (cdbByte cdb 1 >>> 1).setWidth 4
  (p == (3 : BitVec 4) && dir == 0) || (p == (4 : BitVec 4) && dir == 2) || (p == (5 : BitVec 4) && dir == 1)

/-- The sequence count is in 1..2^32-1 (R197). -/
def seqCountOk (n : BitVec 56) : Bool := n != 0 && n.toNat < 2 ^ 32

/-- The instructions that have an encoding at all.  A passthrough word holds the ATA command where the
duplicate words would stand, so it has none with `DUPCHK = 1` (R200, R114). -/
def Instr.encodable : Instr → Bool
  | .devPassthru h _ _ _ _ => h.dupChk == 0
  | _ => true

/-- The instructions the encoder builds: the checks above, per opcode.  Every host operation request is
well formed: what is wrong with one is an operation error of its rule. -/
def Instr.wf : Instr → Bool
  | .null h _ | .getReg h _ _ | .putReg h _ _ _ | .cmdReset h _ | .trim h _ _ _ | .shutdown h _
  | .sataReinit h _ | .cancel h _ _ => h.noData
  | .seqAdvance h n _ => h.noData && seqCountOk n
  | .pageRead h _ bcnt _ _ => h.d2h && h.page && bcnt == 0
  | .extRead h _ bcnt _ _ => h.d2h && h.extCount bcnt
  | .pageWrite h _ bcnt _ _ _ _ => h.h2d && h.page && bcnt == 0
  | .extWrite h _ bcnt _ _ _ _ => h.h2d && h.extCount bcnt
  | .getParams h _ _ _ => h.d2h
  | .setParams h _ _ _ => h.h2d
  | .devPassthru h _ _ cdb _ => h.ok && h.dupChk == 0 && cdbFormOk cdb && cdbProtoOk cdb h.dir
  | .seqRead h _ _ _ | .devStats h _ _ _ | .copy h _ _ _ | .fwNull h _ _ _ | .startup h _ _ _
  | .traceCtrl h _ _ _ | .test h _ _ _ | .debugLog h _ _ _ | .extError h _ _ _ | .fwDownload h _ _ _
  | .crashLog h _ _ _ | .testRead h _ _ _ | .testWrite h _ _ _ | .faultInject h _ _ _
  | .diagnostic h _ _ _ => h.ok
  | .opReset | .encBuild _ | .encFinalize _ _ _ _ _ _ | .alloc _ _ | .allocId _ _ | .build _ _
  | .issue _ _ _ _ | .statusRefresh _ _ | .poll _ _ | .reissue _ _ _ | .detach _ | .release _ => true

end Sys2Proof
end

