-- ==== Sys2Proof/Decode.lean ====
section
/-! DEFINITION. The encodings of spec/30_encoding.md: the reference `Layout`, the bit-field and byte-order
helpers, the decoder (total on any bytes, rejecting by name) and, after it, the encoder. -/

namespace Sys2Proof

/-! ### Words, fields and bytes -/

/-- Word `j` of a Command Word. -/
def CmdWord.get (W : CmdWord) (j : Nat) : Word :=
  match j with
  | 0 => W.w0 | 1 => W.w1 | 2 => W.w2 | 3 => W.w3 | 4 => W.w4 | 5 => W.w5 | 6 => W.w6 | 7 => W.w7
  | _ => 0

/-- The Command Word with word `j` replaced. -/
def CmdWord.set (W : CmdWord) (j : Nat) (v : Word) : CmdWord :=
  match j with
  | 0 => { W with w0 := v } | 1 => { W with w1 := v } | 2 => { W with w2 := v } | 3 => { W with w3 := v }
  | 4 => { W with w4 := v } | 5 => { W with w5 := v } | 6 => { W with w6 := v } | 7 => { W with w7 := v }
  | _ => W

/-- A word with its low `width` bits set. -/
def lowMask (width : Nat) : Word := ((1 : Word) <<< width) - 1

/-- `x` with its bits `lo .. lo+width-1` replaced by the low bits of `v`. -/
def insertBits (x : Word) (lo width : Nat) (v : Word) : Word :=
  (x &&& ~~~(lowMask width <<< lo)) ||| ((v &&& lowMask width) <<< lo)

/-- Read a field (00_scope.md R14). -/
def CmdWord.getField (W : CmdWord) (f : Field) : Word :=
  (W.get f.word >>> f.lo) &&& lowMask f.width

/-- Write a field. -/
def CmdWord.setField (W : CmdWord) (f : Field) (v : Word) : CmdWord :=
  W.set f.word (insertBits (W.get f.word) f.lo f.width v)

/-- The eight bytes of a word, lowest address first: little-endian (20_memory.md R83). -/
def wordBytes (w : Word) : List Byte :=
  [w.extractLsb' 0 8, w.extractLsb' 8 8, w.extractLsb' 16 8, w.extractLsb' 24 8,
   w.extractLsb' 32 8, w.extractLsb' 40 8, w.extractLsb' 48 8, w.extractLsb' 56 8]

/-- The word eight bytes make, lowest address first (R83). -/
def wordOfBytes (b0 b1 b2 b3 b4 b5 b6 b7 : Byte) : Word :=
  b7 ++ b6 ++ b5 ++ b4 ++ b3 ++ b2 ++ b1 ++ b0

/-- The 64 bytes of a Command Word, ascending words (20_memory.md R85). -/
def CmdWord.bytes (W : CmdWord) : List Byte :=
  wordBytes W.w0 ++ wordBytes W.w1 ++ wordBytes W.w2 ++ wordBytes W.w3 ++ wordBytes W.w4 ++ wordBytes W.w5
    ++ wordBytes W.w6 ++ wordBytes W.w7

/-- Eight bytes off the front of a list, as a word. -/
def takeWord : List Byte → Option (Word × List Byte)
  | b0 :: b1 :: b2 :: b3 :: b4 :: b5 :: b6 :: b7 :: rest => some (wordOfBytes b0 b1 b2 b3 b4 b5 b6 b7, rest)
  | _ => none

/-- Sixty-four bytes off the front of a list, as a Command Word. -/
def takeCmdWord (bs : List Byte) : Option (CmdWord × List Byte) := do
  let (w0, bs) ← takeWord bs
  let (w1, bs) ← takeWord bs
  let (w2, bs) ← takeWord bs
  let (w3, bs) ← takeWord bs
  let (w4, bs) ← takeWord bs
  let (w5, bs) ← takeWord bs
  let (w6, bs) ← takeWord bs
  let (w7, bs) ← takeWord bs
  some (⟨w0, w1, w2, w3, w4, w5, w6, w7⟩, bs)

/-! ### The reference layout -/

/-- Every opcode with its code, in the order of 30_encoding.md R131. -/
def Opcode.all : List Opcode :=
  [.null, .getReg, .putReg, .reset, .seqRead, .pageRead, .pageWrite, .extRead, .extWrite, .trim, .devStats,
   .devPassthru, .copy, .fwNull, .shutdown, .startup, .traceCtrl, .test, .seqAdvance, .debugLog, .extError,
   .fwDownload, .getParams, .setParams, .crashLog, .testRead, .testWrite, .sataReinit, .cancel, .faultInject,
   .diagnostic]

/-- Every failure code, in the order of R142. -/
def StatusCode.all : List StatusCode :=
  [.queued, .received, .pending, .collision, .exeError, .xsumError, .eccError, .ooo, .dupError, .fieldError,
   .illegalCmd, .sequenced, .devWarning, .unknownHw]

/-- Every named fault subtype, in the order of R149. -/
def FaultCode.all : List FaultCode := [.wepTimeout, .xsum, .ecc, .cmdOffset, .unknownCmd, .fatal]

/-- The opcode values of R131. -/
def Opcode.code : Opcode → Byte
  | .null => 0x00 | .getReg => 0x01 | .putReg => 0x02 | .reset => 0x03 | .seqRead => 0x04 | .pageRead => 0x05
  | .pageWrite => 0x06 | .extRead => 0x07 | .extWrite => 0x08 | .trim => 0x09 | .devStats => 0x0A
  | .devPassthru => 0x0B | .copy => 0x0C | .fwNull => 0x0D | .shutdown => 0x0E | .startup => 0x0F
  | .traceCtrl => 0x10 | .test => 0x11 | .seqAdvance => 0x12 | .debugLog => 0x13 | .extError => 0x14
  | .fwDownload => 0x15 | .getParams => 0x16 | .setParams => 0x17 | .crashLog => 0x18 | .testRead => 0x19
  | .testWrite => 0x1A | .sataReinit => 0x1B | .cancel => 0x1C | .faultInject => 0x1D | .diagnostic => 0x1E

/-- The status code values of R142. -/
def StatusCode.code : StatusCode → BitVec 5
  | .queued => 0 | .received => 1 | .pending => 2 | .collision => 3 | .exeError => 4 | .xsumError => 5
  | .eccError => 6 | .ooo => 7 | .dupError => 8 | .fieldError => 9 | .illegalCmd => 10 | .sequenced => 11
  | .devWarning => 12 | .unknownHw => 13

/-- The fault subtype values of R149. -/
def FaultCode.code : FaultCode → Byte
  | .wepTimeout => 0xFA | .xsum => 0xFB | .ecc => 0xFC | .cmdOffset => 0xFD | .unknownCmd => 0xFE | .fatal => 0xFF

/-- The code a layout gives an opcode (R131).  DESIGN CHOICE (notes/assumptions/27.md): 0 where its list has none. -/
def Layout.opcode (L : Layout) (o : Opcode) : Byte := L.opcodes.getD (Opcode.all.idxOf o) 0

/-- The opcode a code names, if any (R131-R133).  DESIGN CHOICE (notes/assumptions/27.md): of two names of one code, the
first in the table's order. -/
def Layout.opcodeOf (L : Layout) (c : Byte) : Option Opcode := Opcode.all.find? (fun o => L.opcode o == c)

/-- The opcode in the opcode field of a Command Word, if any. -/
def Layout.opcodeIn (L : Layout) (W : CmdWord) : Option Opcode :=
  let v := W.getField L.opc
  if 256 ≤ v.toNat then none else L.opcodeOf (v.setWidth 8)

/-- The code a layout gives a failure (R142).  DESIGN CHOICE (notes/assumptions/27.md): 0 where its list has none. -/
def Layout.statusCode (L : Layout) (c : StatusCode) : BitVec 5 := L.statusCodes.getD (StatusCode.all.idxOf c) 0

/-- The failure a status code names, if any (R142).  DESIGN CHOICE (notes/assumptions/27.md): of two names of one code, the
first in the table's order. -/
def Layout.statusOf (L : Layout) (c : BitVec 5) : Option StatusCode := StatusCode.all.find? (fun o => L.statusCode o == c)

/-- The code a layout gives a fault subtype (R149).  DESIGN CHOICE (notes/assumptions/27.md): 0 where its list has none. -/
def Layout.faultCode (L : Layout) (c : FaultCode) : Byte := L.faultCodes.getD (FaultCode.all.idxOf c) 0

/-- The fault subtype a low byte names, if any (R149).  DESIGN CHOICE (notes/assumptions/27.md): of two names of one code,
the first in the table's order. -/
def Layout.faultOf (L : Layout) (c : Byte) : Option FaultCode := FaultCode.all.find? (fun o => L.faultCode o == c)

/-- The reference assignment of 30_encoding.md R112-R116, R131, R140, R142, R146, R147, R149 (00_scope.md R9).
DESIGN CHOICE (notes/assumptions/2.md): the default value of the open parameter. -/
def Layout.reference : Layout where
  opc := ⟨0, 0, 8⟩
  slot := ⟨0, 8, 8⟩
  seq := ⟨0, 16, 32⟩
  dir := ⟨0, 48, 2⟩
  hwOnly := ⟨0, 50, 1⟩
  dupChk := ⟨0, 51, 1⟩
  dsize := ⟨0, 52, 2⟩
  msize := ⟨0, 54, 2⟩
  deallocV := ⟨0, 57, 1⟩
  deallocId := ⟨0, 58, 5⟩
  src := ⟨1, 0, 56⟩
  dst := ⟨2, 0, 56⟩
  aux0 := ⟨3, 0, 56⟩
  aux1 := ⟨4, 0, 56⟩
  aux2 := ⟨5, 0, 56⟩
  xsumLo := ⟨6, 0, 64⟩
  xsumHi := ⟨7, 0, 64⟩
  msb0 := 63
  msb1 := 127
  polarity := [(0, 56), (1, 56), (2, 56), (3, 56), (4, 56), (5, 56)]
  stCodeLo := 0
  stExt := 5
  stSodd := 6
  stSucc := 7
  extCurLo := 0
  extMissLo := 32
  opcodes := Opcode.all.map Opcode.code
  statusCodes := StatusCode.all.map StatusCode.code
  faultCodes := FaultCode.all.map FaultCode.code

/-! ### Admissible layouts -/

/-- Two fields share no bit. -/
def Field.apart (f g : Field) : Bool := f.word != g.word || f.lo + f.width ≤ g.lo || g.lo + g.width ≤ f.lo

/-- No two of a list of fields overlap. -/
def fieldsApart : List Field → Bool
  | [] => true
  | f :: fs => fs.all (fun g => f.apart g) && fieldsApart fs

/-- The field has at least one bit, and all its bits lie in one of the eight 64-bit words. -/
def Field.present (f : Field) : Bool := decide (f.word < 8) && decide (1 ≤ f.width) && decide (f.lo + f.width ≤ 64)

/-- The header fields of R112 but the polarity bit. -/
def Layout.header (L : Layout) : List Field :=
  [L.opc, L.slot, L.seq, L.dir, L.hwOnly, L.dupChk, L.dsize, L.msize, L.deallocV, L.deallocId]

/-- Header, source and destination, the fields duplication protects (R111). -/
def Layout.protectedFields (L : Layout) : List Field := L.header ++ [L.src, L.dst]

/-- The three sub-fields of the auxiliary payload (R114). -/
def Layout.auxFields (L : Layout) : List Field := [L.aux0, L.aux1, L.aux2]

/-- The checksum fields (R115). -/
def Layout.xsumFields (L : Layout) : List Field := [L.xsumLo, L.xsumHi]

/-- A polarity position as a one-bit field. -/
def polarityField (p : Nat × Nat) : Field := ⟨p.1, p.2, 1⟩

/-- The polarity positions as one-bit fields (R116). -/
def Layout.polarityFields (L : Layout) : List Field := L.polarity.map polarityField

/-- The top two bits of word 5, which hold checksum MSBs (R117 L2). -/
def msbFields : List Field := [⟨5, 62, 1⟩, ⟨5, 63, 1⟩]

/-- All the fields of a Command Word. -/
def Layout.allFields (L : Layout) : List Field :=
  L.protectedFields ++ L.auxFields ++ L.xsumFields ++ L.polarityFields ++ msbFields

/-- (L1): every field lies in the eight words. -/
def Layout.eightWords (L : Layout) : Bool := L.allFields.all Field.present

/-- One of the fields holds bit `k` of word `j`. -/
def inFields (fs : List Field) (j k : Nat) : Bool := fs.any fun f => f.word == j && f.lo ≤ k && k < f.lo + f.width

/-- A checksum MSB: one of the two top bits of the value, or the top bit of a half or of what a checksum field holds of
it (R115). -/
def Layout.isMsb (L : Layout) (k : Nat) : Bool :=
  [63, 126, 127, L.xsumLo.width - 1, 64 + (L.xsumHi.width - 1)].contains k

/-- What finalize writes after the duplication, checksum and polarity (R230, R231), leaves bit `k` of word `j` and of the
word that mirrors it alike: both are polarity bits, or neither is and no checksum field holds either. -/
def Layout.mirrorsBit (L : Layout) (j k : Nat) : Bool :=
  L.polarity.contains (j, k) == L.polarity.contains (j + 3, k)
    && (L.polarity.contains (j, k) || !inFields L.xsumFields j k && !inFields L.xsumFields (j + 3) k)

/-- (L2): words 3-5 of a duplicated command mirror words 0-2 in every bit but the top two of word 5; these hold checksum
MSBs, so no polarity bit, which is written last, stands there. -/
def Layout.mirrors (L : Layout) : Bool :=
  (List.range 3).all (fun j => (List.range (if j = 2 then 62 else 64)).all fun k => L.mirrorsBit j k)
    && L.polarityFields.all (fun f => msbFields.all f.apart) && L.isMsb L.msb0 && L.isMsb L.msb1

/-- No entry of a list occurs twice. -/
def allDistinct {α : Type} [BEq α] : List α → Bool
  | [] => true
  | a :: as => !as.contains a && allDistinct as

/-- (L3): exactly six words carry a polarity bit, one each. -/
def Layout.sixPolarities (L : Layout) : Bool := L.polarity.length == 6 && allDistinct (L.polarity.map Prod.fst)

/-- (L4): three 56-bit sub-fields, which overlap neither each other nor a polarity bit.  DESIGN CHOICE
(notes/assumptions/2.md): R117 does not define '56-bit-aligned'; it is read as exactly 56 bits wide, at any start bit. -/
def Layout.subFields (L : Layout) : Bool :=
  L.auxFields.all (fun a => a.width == 56) && fieldsApart (L.auxFields ++ L.polarityFields)

/-- (L5), (L6): the sequence number has at least 32 bits, the opcode at least 8. -/
def Layout.wideEnough (L : Layout) : Bool := decide (32 ≤ L.seq.width) && decide (8 ≤ L.opc.width)

/-- (L7): no two fields of the header, the polarity bits among them, overlap. -/
def Layout.headerApart (L : Layout) : Bool := fieldsApart (L.header ++ L.polarityFields)

/-- The constraints every admissible layout satisfies, and no others (R117, L1 to L7).  The block runs with any such
layout (State.configOk). -/
def Layout.admissible (L : Layout) : Bool :=
  L.eightWords && L.mirrors && L.sixPolarities && L.subFields && L.wideEnough && L.headerApart

/-- The status byte is a 5-bit code and three flags (R140), the extended status carries the sequence numbers in
separate 32-bit halves (R147). -/
def Layout.statusFits (L : Layout) : Bool :=
  fieldsApart [⟨0, L.stCodeLo, 5⟩, ⟨0, L.stExt, 1⟩, ⟨0, L.stSodd, 1⟩, ⟨0, L.stSucc, 1⟩]
    && decide (L.stCodeLo + 5 ≤ 8) && [L.stExt, L.stSodd, L.stSucc].all (fun k => decide (k < 8))
    && ((L.extCurLo, L.extMissLo) == (0, 32) || (L.extCurLo, L.extMissLo) == (32, 0))

/-- Each name has a code, and no two names of a kind have one code (R131, R142, R149); 0xF7-0xFF are fault subtypes
and no opcodes (R133). -/
def Layout.codesFit (L : Layout) : Bool :=
  L.opcodes.length == Opcode.all.length && L.statusCodes.length == StatusCode.all.length
    && L.faultCodes.length == FaultCode.all.length && allDistinct L.opcodes && allDistinct L.statusCodes
    && allDistinct L.faultCodes && L.opcodes.all (fun c => decide (c.toNat < 0xF7))
    && L.faultCodes.all (fun c => decide (0xF7 ≤ c.toNat))

/-- What a claim may suppose of a layout beyond R117 (notes/assumptions/2.md): no bit of a Command Word belongs to two
fields, nor to a protected field and the copy of another (R111), nor a bit of a status to two parts, and a code names one
thing.  The block itself asks for none of it; what it does without it is notes/assumptions/27.md. -/
def Layout.unambiguous (L : Layout) : Bool :=
  fieldsApart L.allFields && L.protectedFields.all (fun f => decide (f.word < 3) || decide (6 ≤ f.word)) && L.statusFits
    && L.codesFit

/-- Every bit of the 128-bit checksum has a place: in the field of its half, or as an MSB in word 5. -/
def Layout.holdsChecksum (L : Layout) : Bool :=
  (List.range 64).all (fun k => decide (k < L.xsumLo.width) || k == L.msb0 || k == L.msb1)
    && (List.range 64).all (fun k => decide (k < L.xsumHi.width) || k + 64 == L.msb0 || k + 64 == L.msb1)

/-- Every field is as wide as the operand it carries, which R117 does not ask: with a narrower field the low bits
of the operand are what reaches the word. -/
def Layout.holdsOperands (L : Layout) : Bool :=
  [(L.slot, 8), (L.dir, 2), (L.hwOnly, 1), (L.dupChk, 1), (L.dsize, 2), (L.msize, 2), (L.deallocV, 1), (L.deallocId, 5),
   (L.src, 56), (L.dst, 56)].all (fun p => decide (p.2 ≤ p.1.width)) && L.holdsChecksum

/-- The parameters `State.reset` names.  DESIGN CHOICE (notes/assumptions/3.md): every one is open in the
spec; `R = 1` is the test vectors' value, the bases are aligned and apart for every `N` up to 256, the layout
is the reference one. -/
def Params.reference : Params where
  r := 1
  cmdBase := 0
  statusBase := 0x10000
  extBase := 0x20000
  addrBits := 64
  layout := Layout.reference
  filter := .unknown
  cfg := Cfg.testValues

/-! ### Decoding a Command Word -/

/-- Why bytes decode to no instruction. -/
inductive DecodeError where
  /-- A host operation code 0xC-0xF (60_exceptions.md R405). -/
  | reservedOp
  /-- A host operation request whose bytes are not an op code and its arguments. -/
  | malformedRequest
  /-- Not the 64 bytes of a Command Word (30_encoding.md R110). -/
  | commandLength
  /-- An opcode 0x1F-0xF6 (30_encoding.md R132). -/
  | reservedOpcode
  /-- An opcode 0xF7-0xFF (R133). -/
  | pseudoOpcode
  /-- A reserved bit, or a bit of SRC, DST or AUX that the opcode's packing leaves 0, is 1 (R113, R114, R118). -/
  | reservedBits
  /-- `DUPCHK = 1` and words 3-5 do not mirror words 0-2 (R114). -/
  | notMirrored
  /-- The polarity bits differ (R116). -/
  | mixedPolarity
  /-- The top bits of word 5 are not the checksum MSBs the checksum fields hold (R115). -/
  | checksumMsbs
  /-- `DEALLOC_ID` without `DEALLOC_V` (40_cmdgen.md R227). -/
  | deallocForm
  /-- A passthrough word with `DUPCHK = 1` (40_cmdgen.md R200). -/
  | duplicatedPassthrough
deriving DecidableEq, Repr

/-- The fields of a Command Word (R112-R116). -/
structure Parts where
  opc : Byte
  hdr : CmdHdr
  src : BitVec 56
  dst : BitVec 56
  aux0 : BitVec 56
  aux1 : BitVec 56
  aux2 : BitVec 56
  stamp : Stamp
deriving DecidableEq, Repr

/-- Fields and their values: every value at its place in word `j`, every other bit 0.  DESIGN CHOICE
(notes/assumptions/27.md): where fields overlap, a bit is 1 when one of them has it 1. -/
def placeWord (j : Nat) : List (Field × Word) → Word
  | [] => 0
  | (f, v) :: rest => if f.word = j then insertBits 0 f.lo f.width v ||| placeWord j rest else placeWord j rest

/-- The eight words fields and their values make. -/
def placeFields (fs : List (Field × Word)) : CmdWord :=
  ⟨placeWord 0 fs, placeWord 1 fs, placeWord 2 fs, placeWord 3 fs, placeWord 4 fs, placeWord 5 fs, placeWord 6 fs,
   placeWord 7 fs⟩

/-- The fields of a command with their values, the polarity bits and the checksum fields among them (R112-R116). -/
def Parts.fields (L : Layout) (p : Parts) : List (Field × Word) :=
  let st := p.stamp
  [(L.opc, p.opc.setWidth 64), (L.slot, st.slot.setWidth 64), (L.seq, st.seq.setWidth 64), (L.dir, p.hdr.dir.setWidth 64),
   (L.hwOnly, p.hdr.hwOnly.setWidth 64), (L.dupChk, p.hdr.dupChk.setWidth 64), (L.dsize, p.hdr.dsize.setWidth 64),
   (L.msize, p.hdr.msize.setWidth 64), (L.deallocV, if st.dealloc.isSome then 1 else 0),
   (L.deallocId, (st.dealloc.getD 0).setWidth 64), (L.src, p.src.setWidth 64), (L.dst, p.dst.setWidth 64),
   (L.aux0, p.aux0.setWidth 64), (L.aux1, p.aux1.setWidth 64), (L.aux2, p.aux2.setWidth 64),
   (L.xsumLo, st.xsum.extractLsb' 0 64), (L.xsumHi, st.xsum.extractLsb' 64 64)]
    ++ L.polarityFields.map fun f => (f, st.odd.setWidth 64)

/-- The finalized word of a command's fields: each field at its place; with `DUPCHK = 1` words 3-5 mirror words
0-2; the top two bits of word 5 are the checksum MSBs (R114, R115). -/
def joinParts (L : Layout) (p : Parts) : CmdWord :=
  let W := placeFields (p.fields L)
  let W := if p.hdr.dupChk = 1 then { W with w3 := W.w0, w4 := W.w1, w5 := W.w2 } else W
  { W with w5 := (p.stamp.xsum.extractLsb' L.msb1 1 ++ p.stamp.xsum.extractLsb' L.msb0 1 : BitVec 2) ++ W.w5.extractLsb' 0 62 }

/-- The polarity bit of a word, read at the first position. -/
def Layout.oddOf (L : Layout) (W : CmdWord) : BitVec 1 :=
  match L.polarityFields with
  | [] => 0
  | f :: _ => (W.getField f).setWidth 1

/-- The checksum a Command Word holds: each half in its field, and the MSBs of word 5, which a field may be too narrow
for (R115). -/
def Layout.checksumIn (L : Layout) (W : CmdWord) : BitVec 128 :=
  (W.getField L.xsumHi ++ W.getField L.xsumLo) ||| (W.w5.extractLsb' 62 1).setWidth 128 <<< L.msb0
    ||| (W.w5.extractLsb' 63 1).setWidth 128 <<< L.msb1

/-- The fields of a Command Word, each read at its place (R112-R116). -/
def readParts (L : Layout) (W : CmdWord) : Parts :=
  let dup : BitVec 1 := (W.getField L.dupChk).setWidth 1
  let aux (f : Field) : BitVec 56 := if dup = 1 then 0 else (W.getField f).setWidth 56
  { opc := (W.getField L.opc).setWidth 8
    hdr := { dir := (W.getField L.dir).setWidth 2, hwOnly := (W.getField L.hwOnly).setWidth 1, dupChk := dup,
             dsize := (W.getField L.dsize).setWidth 2, msize := (W.getField L.msize).setWidth 2 }
    src := (W.getField L.src).setWidth 56
    dst := (W.getField L.dst).setWidth 56
    aux0 := aux L.aux0
    aux1 := aux L.aux1
    aux2 := aux L.aux2
    stamp := { slot := (W.getField L.slot).setWidth 8, seq := (W.getField L.seq).setWidth 32, odd := L.oddOf W,
               dealloc := if W.getField L.deallocV = 1 then some ((W.getField L.deallocId).setWidth 5) else none,
               xsum := L.checksumIn W } }

/-- The fields of a Command Word, or what is wrong with it: a word the encoder builds is exactly its fields at
their places. -/
def splitWord (L : Layout) (W : CmdWord) : Except DecodeError Parts :=
  let p := readParts L W
  let V := joinParts L p
  if L.polarityFields.any (fun f => W.getField f != p.stamp.odd.setWidth 64) then .error .mixedPolarity
  else if (msbFields ++ L.xsumFields).any (fun f => W.getField f != V.getField f) then .error .checksumMsbs
  else if p.hdr.dupChk = 1 ∧ (W.w3 ≠ W.w0 ∨ W.w4 ≠ W.w1 ∨ W.w5.extractLsb' 0 62 ≠ W.w2.extractLsb' 0 62) then
    .error .notMirrored
  else if p.stamp.dealloc = none ∧ W.getField L.deallocId ≠ 0 then .error .deallocForm
  else if V ≠ W then .error .reservedBits
  else .ok p

/-- The instruction of an opcode from its fields: SRC and DST unpacked as 40_cmdgen.md gives them. -/
def instrOfParts (o : Opcode) (p : Parts) : Except DecodeError Instr :=
  let h := p.hdr
  let st := p.stamp
  let plain := p.aux0 = 0 ∧ p.aux1 = 0 ∧ p.aux2 = 0
  match o with
  | .devPassthru =>
    if h.dupChk = 1 then .error .duplicatedPassthrough
    else if p.src.extractLsb' 8 48 ≠ 0 ∨ p.dst.extractLsb' 8 48 ≠ 0 ∨ p.aux2.extractLsb' 16 40 ≠ 0 then .error .reservedBits
    else .ok (.devPassthru h (p.src.extractLsb' 0 8) (p.dst.extractLsb' 0 8) (p.aux2.extractLsb' 0 16 ++ p.aux1 ++ p.aux0) st)
  | .null => if plain ∧ p.src = 0 ∧ p.dst = 0 then .ok (.null h st) else .error .reservedBits
  | .reset => if plain ∧ p.src = 0 ∧ p.dst = 0 then .ok (.cmdReset h st) else .error .reservedBits
  | .shutdown => if plain ∧ p.src = 0 ∧ p.dst = 0 then .ok (.shutdown h st) else .error .reservedBits
  | .sataReinit => if plain ∧ p.src = 0 ∧ p.dst = 0 then .ok (.sataReinit h st) else .error .reservedBits
  | .getReg => if plain ∧ p.dst = 0 then .ok (.getReg h p.src st) else .error .reservedBits
  | .putReg => if plain then .ok (.putReg h p.src p.dst st) else .error .reservedBits
  | .seqAdvance => if plain ∧ p.dst = 0 then .ok (.seqAdvance h p.src st) else .error .reservedBits
  | .cancel => if plain ∧ p.src.extractLsb' 8 48 = 0 ∧ p.dst = 0 then .ok (.cancel h (p.src.extractLsb' 0 8) st) else .error .reservedBits
  | .trim => if plain ∧ p.dst.extractLsb' 32 24 = 0 then .ok (.trim h p.src (p.dst.extractLsb' 0 32) st) else .error .reservedBits
  | .getParams =>
    if plain ∧ p.src.extractLsb' 32 24 = 0 ∧ p.dst.extractLsb' 8 48 = 0 then
      .ok (.getParams h (p.src.extractLsb' 0 32) (p.dst.extractLsb' 0 8) st) else .error .reservedBits
  | .setParams =>
    if plain ∧ p.src.extractLsb' 8 48 = 0 ∧ p.dst.extractLsb' 32 24 = 0 then
      .ok (.setParams h (p.src.extractLsb' 0 8) (p.dst.extractLsb' 0 32) st) else .error .reservedBits
  | .pageRead =>
    if plain ∧ p.dst.extractLsb' 16 40 = 0 then
      .ok (.pageRead h p.src (p.dst.extractLsb' 8 8) (p.dst.extractLsb' 0 8) st) else .error .reservedBits
  | .extRead =>
    if plain ∧ p.dst.extractLsb' 16 40 = 0 then
      .ok (.extRead h p.src (p.dst.extractLsb' 8 8) (p.dst.extractLsb' 0 8) st) else .error .reservedBits
  | .pageWrite =>
    if plain ∧ p.src.extractLsb' 32 24 = 0 then
      .ok (.pageWrite h (p.src.extractLsb' 0 8) (p.src.extractLsb' 8 8) (p.src.extractLsb' 16 8) (p.src.extractLsb' 24 8) p.dst st)
    else .error .reservedBits
  | .extWrite =>
    if plain ∧ p.src.extractLsb' 32 24 = 0 then
      .ok (.extWrite h (p.src.extractLsb' 0 8) (p.src.extractLsb' 8 8) (p.src.extractLsb' 16 8) (p.src.extractLsb' 24 8) p.dst st)
    else .error .reservedBits
  | .seqRead => if plain then .ok (.seqRead h p.src p.dst st) else .error .reservedBits
  | .devStats => if plain then .ok (.devStats h p.src p.dst st) else .error .reservedBits
  | .copy => if plain then .ok (.copy h p.src p.dst st) else .error .reservedBits
  | .fwNull => if plain then .ok (.fwNull h p.src p.dst st) else .error .reservedBits
  | .startup => if plain then .ok (.startup h p.src p.dst st) else .error .reservedBits
  | .traceCtrl => if plain then .ok (.traceCtrl h p.src p.dst st) else .error .reservedBits
  | .test => if plain then .ok (.test h p.src p.dst st) else .error .reservedBits
  | .debugLog => if plain then .ok (.debugLog h p.src p.dst st) else .error .reservedBits
  | .extError => if plain then .ok (.extError h p.src p.dst st) else .error .reservedBits
  | .fwDownload => if plain then .ok (.fwDownload h p.src p.dst st) else .error .reservedBits
  | .crashLog => if plain then .ok (.crashLog h p.src p.dst st) else .error .reservedBits
  | .testRead => if plain then .ok (.testRead h p.src p.dst st) else .error .reservedBits
  | .testWrite => if plain then .ok (.testWrite h p.src p.dst st) else .error .reservedBits
  | .faultInject => if plain then .ok (.faultInject h p.src p.dst st) else .error .reservedBits
  | .diagnostic => if plain then .ok (.diagnostic h p.src p.dst st) else .error .reservedBits

/-- The instruction a Command Word stands for (R130-R133 for the opcode). -/
def decodeWord (L : Layout) (W : CmdWord) : Except DecodeError Instr :=
  match L.opcodeIn W with
  | none => if 0xF7 ≤ (W.getField L.opc).toNat then .error .pseudoOpcode else .error .reservedOpcode
  | some o =>
    match splitWord L W with
    | .error e => .error e
    | .ok p => instrOfParts o p

/-- The instruction in the bytes of a Command Word. -/
def decodeCommand (L : Layout) (bs : List Byte) : Except DecodeError Instr :=
  match takeCmdWord bs with
  | some (W, []) => decodeWord L W
  | _ => .error .commandLength

/-! ### Decoding a host operation request

The spec gives the 4-bit op code and the argument types (R160) and no bits for the arguments.  DESIGN
CHOICE (notes/assumptions/9.md): every argument is a number in groups of seven bits, lowest first, bit 7 of
a byte set when more groups follow, so that no value of an argument is shut out; what follows the
arguments is zero padding. -/

/-- A number off the front of a list of bytes. -/
def getNat : List Byte → Option (Nat × List Byte)
  | [] => none
  | b :: bs =>
    if b.toNat < 128 then some (b.toNat, bs)
    else
      match getNat bs with
      | none => none
      | some (n, rest) => some (b.toNat - 128 + 128 * n, rest)

/-- A number that fits `w` bits. -/
def getBits (w : Nat) (bs : List Byte) : Option (BitVec w × List Byte) :=
  match getNat bs with
  | none => none
  | some (n, rest) => if n < 2 ^ w then some (BitVec.ofNat w n, rest) else none

/-- A truth value: 0 or 1. -/
def getBool (bs : List Byte) : Option (Bool × List Byte) :=
  match getNat bs with
  | some (0, rest) => some (false, rest)
  | some (1, rest) => some (true, rest)
  | _ => none

/-- An optional argument: 0, or 1 and then the argument. -/
def getOption {α : Type} (get : List Byte → Option (α × List Byte)) (bs : List Byte) : Option (Option α × List Byte) :=
  match getNat bs with
  | some (0, rest) => some (none, rest)
  | some (1, rest) =>
    match get rest with
    | some (a, rest) => some (some a, rest)
    | none => none
  | _ => none

/-- `n` bytes, each a number below 256. -/
def getBytes : Nat → List Byte → Option (List Byte × List Byte)
  | 0, bs => some ([], bs)
  | n + 1, bs =>
    match getBits 8 bs with
    | none => none
    | some (b, bs) =>
      match getBytes n bs with
      | none => none
      | some (l, bs) => some (b :: l, bs)

/-- The encoder's input record, in the field order of 40_cmdgen.md R170. -/
def getReq (bs : List Byte) : Option (BuildReq × List Byte) := do
  let (kind, bs) ← getBits 8 bs
  let (h2dLen, bs) ← getNat bs
  let (d2hLen, bs) ← getNat bs
  let (lba, bs) ← getBits 56 bs
  let (count, bs) ← getBits 32 bs
  let (reg, bs) ← getBits 56 bs
  let (value, bs) ← getBits 56 bs
  let (param, bs) ← getBits 32 bs
  let (seqCount, bs) ← getNat bs
  let (target, bs) ← getBits 8 bs
  let (len, bs) ← getNat bs
  let (cdb, bs) ← getBytes len bs
  let (rawOpcode, bs) ← getBits 8 bs
  let (rawSrc, bs) ← getBits 56 bs
  let (rawDst, bs) ← getBits 56 bs
  let (coreBuf, bs) ← getOption (getBits 8) bs
  let (wbuf0, bs) ← getOption (getBits 8) bs
  let (wbuf1, bs) ← getOption (getBits 8) bs
  let (wbuf2, bs) ← getOption (getBits 8) bs
  let (msize, bs) ← getBits 2 bs
  let (hwOnly, bs) ← getBits 1 bs
  let (buddy, bs) ← getOption getNat bs
  let (reqTag, bs) ← getNat bs
  let (hostLive, bs) ← getBool bs
  let (quiet, bs) ← getBool bs
  some ({ kind, h2dLen, d2hLen, lba, count, reg, value, param, seqCount, target, cdb, rawOpcode, rawSrc, rawDst,
          coreBuf, wbuf0, wbuf1, wbuf2, msize, hwOnly, buddy, reqTag, hostLive, quiet }, bs)

/-- A Command Word as an argument: its eight words. -/
def getWordArg (bs : List Byte) : Option (CmdWord × List Byte) := do
  let (w0, bs) ← getBits 64 bs
  let (w1, bs) ← getBits 64 bs
  let (w2, bs) ← getBits 64 bs
  let (w3, bs) ← getBits 64 bs
  let (w4, bs) ← getBits 64 bs
  let (w5, bs) ← getBits 64 bs
  let (w6, bs) ← getBits 64 bs
  let (w7, bs) ← getBits 64 bs
  some (⟨w0, w1, w2, w3, w4, w5, w6, w7⟩, bs)

/-- A token type: 0 GENERAL, 1 RESERVED. -/
def getTokenType (bs : List Byte) : Option (TokenType × List Byte) :=
  match getNat bs with
  | some (0, rest) => some (.general, rest)
  | some (1, rest) => some (.reserved, rest)
  | _ => none

/-- The instruction of an op code and the bytes of its arguments, in the order of R160. -/
def getOp (op : Nat) (bs : List Byte) : Option (Instr × List Byte) :=
  match op with
  | 0x0 => some (.opReset, bs)
  | 0x1 => do
    let (req, bs) ← getReq bs
    some (.encBuild req, bs)
  | 0x2 => do
    let (w, bs) ← getWordArg bs
    let (odd, bs) ← getBits 1 bs
    let (slot, bs) ← getBits 8 bs
    let (seq, bs) ← getBits 32 bs
    let (dealloc, bs) ← getOption (getBits 5) bs
    let (xsum, bs) ← getBits 128 bs
    some (.encFinalize w odd slot seq dealloc xsum, bs)
  | 0x3 => do
    let (kind, bs) ← getBits 8 bs
    let (carry, bs) ← getNat bs
    some (.alloc kind carry, bs)
  | 0x4 => do
    let (slot, bs) ← getNat bs
    let (kind, bs) ← getBits 8 bs
    some (.allocId slot kind, bs)
  | 0x5 => do
    let (slot, bs) ← getNat bs
    let (req, bs) ← getReq bs
    some (.build slot req, bs)
  | 0x6 => do
    let (slot, bs) ← getNat bs
    let (dealloc, bs) ← getOption (getBits 5) bs
    let (xsum, bs) ← getBits 128 bs
    let (now, bs) ← getNat bs
    some (.issue slot dealloc xsum now, bs)
  | 0x7 => do
    let (t, bs) ← getTokenType bs
    let (now, bs) ← getNat bs
    some (.statusRefresh t now, bs)
  | 0x8 => do
    let (slot, bs) ← getNat bs
    let (now, bs) ← getNat bs
    some (.poll slot now, bs)
  | 0x9 => do
    let (slot, bs) ← getNat bs
    let (req, bs) ← getOption getReq bs
    let (now, bs) ← getNat bs
    some (.reissue slot req now, bs)
  | 0xA => do
    let (slot, bs) ← getNat bs
    some (.detach slot, bs)
  | 0xB => do
    let (slot, bs) ← getNat bs
    some (.release slot, bs)
  | _ => none

/-- The instruction in the bytes of a host operation request: the op code in the low four bits of the
first byte (R160), the arguments, zero padding. -/
def decodeHostOp : List Byte → Except DecodeError Instr
  | [] => .error .malformedRequest
  | b :: bs =>
    if 16 ≤ b.toNat then .error .malformedRequest
    else if 12 ≤ b.toNat then .error .reservedOp
    else
      match getOp b.toNat bs with
      | none => .error .malformedRequest
      | some (i, rest) => if rest.all (fun x => x == 0) then .ok i else .error .malformedRequest

/-- The decoder: total on any bytes of either format, rejecting by name. -/
def decode (L : Layout) : Request → Except DecodeError Instr
  | .hostOp bs => decodeHostOp bs
  | .command bs => decodeCommand L bs

/-! ### Encoding -/

/-- The fields of a command that has no auxiliary words. -/
def plainParts (L : Layout) (o : Opcode) (h : CmdHdr) (src dst : BitVec 56) (st : Stamp) : Parts :=
  { opc := L.opcode o, hdr := h, src, dst, aux0 := 0, aux1 := 0, aux2 := 0, stamp := st }

/-- A byte, a block count and a buffer as the low bytes of a 56-bit field (R122, R176). -/
def packRead (bcnt coreBuf : Byte) : BitVec 56 := (0 : BitVec 40) ++ bcnt ++ coreBuf

/-- The three write buffers and the block count (R181). -/
def packWrite (wbuf0 bcnt wbuf1 wbuf2 : Byte) : BitVec 56 := (0 : BitVec 24) ++ wbuf2 ++ wbuf1 ++ bcnt ++ wbuf0

/-- The fields of a command's Command Word; none for a host operation. -/
def Instr.parts (L : Layout) : Instr → Option Parts
  | .null h st => some (plainParts L .null h 0 0 st)
  | .getReg h reg st => some (plainParts L .getReg h reg 0 st)
  | .putReg h value reg st => some (plainParts L .putReg h value reg st)
  | .cmdReset h st => some (plainParts L .reset h 0 0 st)
  | .pageRead h lba bcnt coreBuf st => some (plainParts L .pageRead h lba (packRead bcnt coreBuf) st)
  | .extRead h lba bcnt coreBuf st => some (plainParts L .extRead h lba (packRead bcnt coreBuf) st)
  | .pageWrite h wbuf0 bcnt wbuf1 wbuf2 lba st => some (plainParts L .pageWrite h (packWrite wbuf0 bcnt wbuf1 wbuf2) lba st)
  | .extWrite h wbuf0 bcnt wbuf1 wbuf2 lba st => some (plainParts L .extWrite h (packWrite wbuf0 bcnt wbuf1 wbuf2) lba st)
  | .trim h lba count st => some (plainParts L .trim h lba ((0 : BitVec 24) ++ count) st)
  | .devPassthru h wbuf0 coreBuf cdb st =>
    some
      { opc := L.opcode .devPassthru, hdr := h, src := (0 : BitVec 48) ++ wbuf0, dst := (0 : BitVec 48) ++ coreBuf,
        aux0 := cdb.extractLsb' 0 56, aux1 := cdb.extractLsb' 56 56, aux2 := (0 : BitVec 40) ++ cdb.extractLsb' 112 16,
        stamp := st }
  | .shutdown h st => some (plainParts L .shutdown h 0 0 st)
  | .seqAdvance h seqCount st => some (plainParts L .seqAdvance h seqCount 0 st)
  | .getParams h param coreBuf st => some (plainParts L .getParams h ((0 : BitVec 24) ++ param) ((0 : BitVec 48) ++ coreBuf) st)
  | .setParams h wbuf0 param st => some (plainParts L .setParams h ((0 : BitVec 48) ++ wbuf0) ((0 : BitVec 24) ++ param) st)
  | .sataReinit h st => some (plainParts L .sataReinit h 0 0 st)
  | .cancel h target st => some (plainParts L .cancel h ((0 : BitVec 48) ++ target) 0 st)
  | .seqRead h src dst st => some (plainParts L .seqRead h src dst st)
  | .devStats h src dst st => some (plainParts L .devStats h src dst st)
  | .copy h src dst st => some (plainParts L .copy h src dst st)
  | .fwNull h src dst st => some (plainParts L .fwNull h src dst st)
  | .startup h src dst st => some (plainParts L .startup h src dst st)
  | .traceCtrl h src dst st => some (plainParts L .traceCtrl h src dst st)
  | .test h src dst st => some (plainParts L .test h src dst st)
  | .debugLog h src dst st => some (plainParts L .debugLog h src dst st)
  | .extError h src dst st => some (plainParts L .extError h src dst st)
  | .fwDownload h src dst st => some (plainParts L .fwDownload h src dst st)
  | .crashLog h src dst st => some (plainParts L .crashLog h src dst st)
  | .testRead h src dst st => some (plainParts L .testRead h src dst st)
  | .testWrite h src dst st => some (plainParts L .testWrite h src dst st)
  | .faultInject h src dst st => some (plainParts L .faultInject h src dst st)
  | .diagnostic h src dst st => some (plainParts L .diagnostic h src dst st)
  | .opReset | .encBuild _ | .encFinalize _ _ _ _ _ _ | .alloc _ _ | .allocId _ _ | .build _ _
  | .issue _ _ _ _ | .statusRefresh _ _ | .poll _ _ | .reissue _ _ _ | .detach _ | .release _ => none

/-- The groups of seven bits of a number, with fuel. -/
def putNatFuel : Nat → Nat → List Byte
  | 0, n => [BitVec.ofNat 8 n]
  | f + 1, n => if n < 128 then [BitVec.ofNat 8 n] else BitVec.ofNat 8 (n % 128 + 128) :: putNatFuel f (n / 128)

/-- A number as an argument. -/
def putNat (n : Nat) : List Byte := putNatFuel n.log2 n

/-- A bit vector as an argument. -/
def putBits {w : Nat} (v : BitVec w) : List Byte := putNat v.toNat

/-- A truth value as an argument. -/
def putBool (b : Bool) : List Byte := putNat b.toNat

/-- An optional argument. -/
def putOption {α : Type} (put : α → List Byte) : Option α → List Byte
  | none => putNat 0
  | some a => putNat 1 ++ put a

/-- A list of bytes as an argument, without its length. -/
def putBytes : List Byte → List Byte
  | [] => []
  | b :: bs => putBits b ++ putBytes bs

/-- The encoder's input record as an argument. -/
def putReq (r : BuildReq) : List Byte :=
  putBits r.kind ++ (putNat r.h2dLen ++ (putNat r.d2hLen ++ (putBits r.lba ++ (putBits r.count ++ (putBits r.reg ++
  (putBits r.value ++ (putBits r.param ++ (putNat r.seqCount ++ (putBits r.target ++ (putNat r.cdb.length ++
  (putBytes r.cdb ++ (putBits r.rawOpcode ++ (putBits r.rawSrc ++ (putBits r.rawDst ++ (putOption putBits r.coreBuf ++
  (putOption putBits r.wbuf0 ++ (putOption putBits r.wbuf1 ++ (putOption putBits r.wbuf2 ++ (putBits r.msize ++
  (putBits r.hwOnly ++ (putOption putNat r.buddy ++ (putNat r.reqTag ++ (putBool r.hostLive ++
  putBool r.quiet)))))))))))))))))))))))

/-- A Command Word as an argument. -/
def putWordArg (W : CmdWord) : List Byte :=
  putBits W.w0 ++ (putBits W.w1 ++ (putBits W.w2 ++ (putBits W.w3 ++ (putBits W.w4 ++ (putBits W.w5 ++
  (putBits W.w6 ++ putBits W.w7))))))

/-- A token type as an argument. -/
def putTokenType : TokenType → List Byte
  | .general => putNat 0
  | .reserved => putNat 1

/-- The op code of a host operation and the bytes of its arguments (R160); none for a command. -/
def Instr.opBytes : Instr → Option (Byte × List Byte)
  | .opReset => some (0x0, [])
  | .encBuild req => some (0x1, putReq req)
  | .encFinalize w odd slot seq dealloc xsum =>
    some (0x2, putWordArg w ++ (putBits odd ++ (putBits slot ++ (putBits seq ++ (putOption putBits dealloc ++ putBits xsum)))))
  | .alloc kind carry => some (0x3, putBits kind ++ putNat carry)
  | .allocId slot kind => some (0x4, putNat slot ++ putBits kind)
  | .build slot req => some (0x5, putNat slot ++ putReq req)
  | .issue slot dealloc xsum now => some (0x6, putNat slot ++ (putOption putBits dealloc ++ (putBits xsum ++ putNat now)))
  | .statusRefresh t now => some (0x7, putTokenType t ++ putNat now)
  | .poll slot now => some (0x8, putNat slot ++ putNat now)
  | .reissue slot req now => some (0x9, putNat slot ++ (putOption putReq req ++ putNat now))
  | .detach slot => some (0xA, putNat slot)
  | .release slot => some (0xB, putNat slot)
  | _ => none

/-- The encoder: the Command Word of a command, the request bytes of a host operation. -/
def encode (L : Layout) (i : Instr) : Request :=
  match i.opBytes with
  | some (op, args) => .hostOp (op :: args)
  | none =>
    match i.parts L with
    | some p => .command (joinParts L p).bytes
    | none => .hostOp []

/-! ### The host's table words -/

/-- The `n` bytes of a number, bit 0 in the first byte. -/
def tableBytes : Nat → Nat → List Byte
  | 0, _ => []
  | n + 1, w => BitVec.ofNat 8 w :: tableBytes n (w / 256)

/-- The request a table word stands for: a row of up to one byte with an op code below 12 is a HOSTOP
row, every other one a CMDWORD row; all bits above `nbits` are zero.  DESIGN CHOICE
(notes/assumptions/10.md): the two formats number their codes from 0, so the width tells them apart. -/
def tableRequest (nbits w : Nat) : Request :=
  let v := w % 2 ^ nbits
  if nbits ≤ 8 ∧ v < 12 then .hostOp (tableBytes 64 v) else .command (tableBytes 64 v)

/-- The instruction the decoder reads from an instruction of spec/opcode_table.json whose bits are `w`, in the
reference layout, which the table's codes are of. -/
def decodeTableWord (nbits w : Nat) : Option Instr :=
  match decode Layout.reference (tableRequest nbits w) with
  | .ok i => some i
  | .error _ => none

end Sys2Proof
end

