-- ==== Sys2Proof/Machine/State.lean ====
section
/-! DEFINITION. The state of the block (spec/10_state.md), the device memory it reaches (20_memory.md),
its port, the reasons a step can stop, and the state after reset (70_reset_and_hazards.md R440-R442). -/

namespace Sys2Proof.Machine

open Sys2Proof

/-- The lifecycle state of a token (10_state.md R35). -/
inductive TokState where
  | free
  | allocated
  | built
  | active
  | done
deriving DecidableEq, Repr

/-- The result code of a token (10_state.md R36). -/
inductive Result where
  | none
  | notComplete
  | ok
  | retry
  | abort
  | abortHard
  | timeout
deriving DecidableEq, Repr

/-- Which rule set a failure result (60_exceptions.md R402), in the order of its codes 1-23. -/
inductive Reason where
  | collision | field | illegalNoExt | fatalFw | hwXsum | xsumBudget | hwWep | wepBudget | hwEcc | hwCmdOffset
  | unknownFc | exe | exeDevdir | ecc | eccBudget | unknownHw | xsum | dupRetry | dupAbort | unspecCode | timeout
  | filterDeny | budgetExhausted
deriving DecidableEq, Repr

/-- The operation errors (60_exceptions.md R403), in the table's order. -/
inductive OpError where
  | badOp | badSlot | timeRegression | badState | deviceDead | poolExhausted | slotBusy | hostAttached | badBuddy
  | badKind | badMsize | bidir | badSize | badDir | badSeqCount | badPtOpcode | badProtocol | badOpcode
deriving DecidableEq, Repr

/-- The level of a log record (60_exceptions.md R425). -/
inductive LogLevel where
  | info
  | warn
  | err
deriving DecidableEq, Repr

/-- What a log record is about (60_exceptions.md R425). -/
inductive LogWhat where
  | devWarning
  | exeError
  | timeout
  | ooo
deriving DecidableEq, Repr

/-- Why a command was re-written (43_timeout_ooo.md R360). -/
inductive RewriteCause where
  | lost
  | oooTimeout
  | oooImmediate
deriving DecidableEq, Repr

/-- The events of a response (60_exceptions.md R424). -/
inductive Event where
  | statusChanged (slot : Nat) (b : Byte)
  | rdBufDone (slot : Nat) (id : BitVec 5)
  | wrBufFree (slot : Nat) (ids : List Byte)
  | earlyCommit (slot : Nat) (tag : Nat)
  | log (level : LogLevel) (slot : Nat) (what : LogWhat) (ext : Option Word)
  | halted (slot : Nat) (why : Reason)
  | rewrite (slot : Nat) (cause : RewriteCause)
  | recoverRdBufs (slot : Nat)
  | released (slot : Nat) (core wbuf0 wbuf1 wbuf2 : Option Byte) (rdbuf : Option (BitVec 5))
deriving DecidableEq, Repr

/-- The response of an operation (30_encoding.md R160).  A part the operation's rule does not return is
absent. -/
structure Response where
  err : Option OpError
  done : Option Bool
  result : Option Result
  slot : Option Nat
  word : Option CmdWord
  events : List Event
deriving DecidableEq, Repr

/-- The response with nothing in it. -/
def Response.empty : Response := ⟨none, none, none, none, none, []⟩

/-- The token record (10_state.md R34), field for field. -/
structure Token where
  st : TokState
  allocKind : Byte
  cmd : CmdWord
  wire : CmdWord
  cls : Class
  devdir : Bool
  odd : BitVec 1
  hasSeq : Bool
  seq : BitVec 32
  lastStatus : Option Byte
  extCache : Option Word
  coreBuf : Option Byte
  wbuf0 : Option Byte
  wbuf1 : Option Byte
  wbuf2 : Option Byte
  rdbuf : Option (BitVec 5)
  h2dLen : Nat
  d2hLen : Nat
  dealloc : Option (BitVec 5)
  xsum : BitVec 128
  issueTime : Nat
  touchedTime : Option Nat
  armedTime : Nat
  tmoDur : Nat
  stage : Stage
  ctrGeneric : Nat
  lostRefreshes : Nat
  rdbufRecover : Nat
  timeouts : Nat
  result : Result
  why : Option Reason
  buddy : Option Nat
  reqTag : Nat
  hostLive : Bool
  earlyCommitted : Bool
  xferFromHost : Bool
  quiet : Bool
  oooMissing : Bool
  oooReplay : Bool
  seenInHw : Bool
deriving DecidableEq, Repr

/-- The reset token: the "reset" column of 10_state.md R34. -/
def Token.reset : Token where
  st := .free
  allocKind := 0
  cmd := CmdWord.zero
  wire := CmdWord.zero
  cls := .control
  devdir := false
  odd := 0
  hasSeq := false
  seq := 0
  lastStatus := none
  extCache := none
  coreBuf := none
  wbuf0 := none
  wbuf1 := none
  wbuf2 := none
  rdbuf := none
  h2dLen := 0
  d2hLen := 0
  dealloc := none
  xsum := 0
  issueTime := 0
  touchedTime := none
  armedTime := 0
  tmoDur := 0
  stage := .issued
  ctrGeneric := 0
  lostRefreshes := 0
  rdbufRecover := 0
  timeouts := 0
  result := .none
  why := none
  buddy := none
  reqTag := 0
  hostLive := false
  earlyCommitted := false
  xferFromHost := false
  quiet := false
  oooMissing := false
  oooReplay := false
  seenInHw := false

/-- The kind-specific retry counters of a slot (10_state.md R41). -/
structure RetryCtr where
  xsum : Nat
  wep : Nat
  ecc : Nat
deriving DecidableEq, Repr

/-- No retry counted. -/
def RetryCtr.zero : RetryCtr := ⟨0, 0, 0⟩

/-- The state of one slot: its token `tok[i]` (R34), `slot_odd[i]` (R40), `slot_ctr[i]` (R41) and
`status_cache[i]` (R44). -/
structure Slot where
  tok : Token
  odd : BitVec 1
  ctr : RetryCtr
  cache : Option Byte
deriving DecidableEq, Repr

/-- A slot after RESET (70_reset_and_hazards.md R440). -/
def Slot.reset : Slot := ⟨Token.reset, 0, RetryCtr.zero, none⟩

/-- The statistics counters (10_state.md R48). -/
structure Stats where
  collision : Nat
  field : Nat
  xsum : Nat
  ecc : Nat
  illegal : Nat
  exe : Nat
  ooo : Nat
  oooDup : Nat
  unknownHw : Nat
  warning : Nat
  timeout : Nat
  falseTimeout : Nat
  lostRefresh : Nat
  oooReplay : Nat
  statusChanged : Nat
deriving DecidableEq, Repr

/-- Every counter 0. -/
def Stats.zero : Stats := ⟨0, 0, 0, 0, 0, 0, 0, 0, 0, 0, 0, 0, 0, 0, 0⟩

/-- Device memory as far as anything has written it: (address, byte) pairs, addresses strictly rising.  An
address that is not listed holds no value here; a read of one by the block draws any value
(20_memory.md R90, 70_reset_and_hazards.md R442). -/
structure Memory where
  cells : List Host.Cell
deriving DecidableEq, Repr

/-- What the device does of its own (20_memory.md R90): it writes a slot's status byte or its extended
status word. -/
inductive DeviceWrite where
  | status (slot : Nat) (b : Byte)
  | ext (slot : Nat) (v : Word)
deriving DecidableEq, Repr

/-- One thing that reaches the machine from outside, in the order it arrives: a request on the host
operation port, or a write of the device. -/
inductive Input where
  | request (q : Request)
  | device (w : DeviceWrite)
deriving DecidableEq, Repr

/-- Reasons a step stops with a fault. -/
inductive Fault where
  /-- Raised by a device write to a slot that does not exist: the block reaches three regions of `N` slots
  and no other memory (20_memory.md R80, R81).  Safe: the machine stops where the spec gives no state. -/
  | deviceOutsideRegions (slot : Nat)
deriving DecidableEq, Repr

/-- Reasons a step is refused. -/
inductive Refusal where
  /-- Raised by an arm of `exec` whose instruction has no meaning yet.  No arm does.  Safe. -/
  | notModelled (mnemonic : String)
  /-- Raised by `step` before any operation when the parameters break 00_scope.md R6, R7 or 20_memory.md
  R81, R84: "a configuration error, not a runtime fault".  Safe: the spec refuses it too. -/
  | badConfiguration
  /-- Raised by `step` on 64 bytes that are no Command Word any encoder builds (30_encoding.md R113-R118):
  what the device does with one is not in the spec.  Safe. -/
  | malformedCommandWord (why : DecodeError)
deriving DecidableEq, Repr

/-- The whole machine. -/
structure State where
  /-- The slot table: tokens, polarities, retry counters and status cache.  Its length is `N` (R6). -/
  slots : List Slot
  /-- `seq_next` (10_state.md R42). -/
  seqNext : BitVec 32
  /-- `run` (R43). -/
  run : RunState
  /-- `refresh_time[GENERAL]` and `refresh_time[RESERVED]` (R45). -/
  refreshGeneral : Option Nat
  refreshReserved : Option Nat
  /-- `active`, oldest launch first (R46). -/
  active : List Nat
  /-- `last_now` (R47). -/
  lastNow : Nat
  /-- `stats` (R48). -/
  stats : Stats
  /-- `unspec_seen` (R49). -/
  unspecSeen : Bool
  /-- The parameters and `cfg` (00_scope.md R6-R12, 10_state.md R60): written by no step. -/
  params : Params
  /-- Device memory (20_memory.md R80-R84). -/
  mem : Memory
  /-- The model's own: every command write so far, oldest first, as the device sees them submitted
  (20_memory.md R87). -/
  submitted : List (Nat × CmdWord)
  /-- The response of the last operation on the port (30_encoding.md R160). -/
  resp : Response
  /-- The model's own: what is still to arrive from outside, first first. -/
  inputs : List Input
  /-- The model's own: the draws ALLOC is still to make, and how many it has made (00_scope.md R13). -/
  draws : List Nat
  drawCount : Nat
deriving DecidableEq, Repr

/-- The machine after reset with `n` slots and the given parameters: every register of the block as RESET
leaves it (70_reset_and_hazards.md R440, R442), device memory with nothing listed, an idle port. -/
def State.resetWith (n : Nat) (p : Params) : State where
  slots := List.replicate n Slot.reset
  seqNext := 0
  run := .running
  refreshGeneral := none
  refreshReserved := none
  active := []
  lastNow := 0
  stats := Stats.zero
  unspecSeen := false
  params := p
  mem := ⟨[]⟩
  submitted := []
  resp := Response.empty
  inputs := []
  draws := []
  drawCount := 0

/-- The machine right after reset.  DESIGN CHOICE (notes/assumptions/3.md): `N = 4` and the parameters of
`Params.reference`, which the spec leaves open. -/
def State.reset : State := State.resetWith 4 Params.reference

end Sys2Proof.Machine
end

