-- ==== Sys2Proof/Machine/Ops.lean ====
section
/-! DEFINITION. The named operations over the slot table, device memory, the response and time: every read
and write of the state goes through them.  Raising an operation error (60_exceptions.md R407) and
abort-hard (R410) stand here: the block has no other exception. -/

namespace Sys2Proof.Machine

open Sys2Proof

/-! ### Numeric codes of the response -/

/-- The code of an operation error (60_exceptions.md R403). -/
def OpError.code : OpError → Nat
  | .badOp => 1 | .badSlot => 2 | .timeRegression => 3 | .badState => 4 | .deviceDead => 5 | .poolExhausted => 6
  | .slotBusy => 7 | .hostAttached => 8 | .badBuddy => 9 | .badKind => 16 | .badMsize => 17 | .bidir => 18
  | .badSize => 19 | .badDir => 20 | .badSeqCount => 21 | .badPtOpcode => 22 | .badProtocol => 23 | .badOpcode => 24

/-- The code of a reason (60_exceptions.md R402). -/
def Reason.code : Reason → Nat
  | .collision => 1 | .field => 2 | .illegalNoExt => 3 | .fatalFw => 4 | .hwXsum => 5 | .xsumBudget => 6
  | .hwWep => 7 | .wepBudget => 8 | .hwEcc => 9 | .hwCmdOffset => 10 | .unknownFc => 11 | .exe => 12
  | .exeDevdir => 13 | .ecc => 14 | .eccBudget => 15 | .unknownHw => 16 | .xsum => 17 | .dupRetry => 18
  | .dupAbort => 19 | .unspecCode => 20 | .timeout => 21 | .filterDeny => 22 | .budgetExhausted => 23

/-! ### Memory -/

/-- The addresses of a list of cells rise strictly. -/
def cellsRising : List Host.Cell → Bool
  | [] => true
  | c :: cs => cs.all (fun d => decide (c.1 < d.1)) && cellsRising cs

/-- The canonical form of memory. -/
def Memory.wf (m : Memory) : Bool := cellsRising m.cells

/-- The byte a list of cells holds at an address. -/
def cellsRead : List Host.Cell → Nat → Option Byte
  | [], _ => none
  | c :: cs, a => if c.1 = a then some c.2 else cellsRead cs a

/-- The byte memory holds at an address; none where nothing has written. -/
def Memory.read (m : Memory) (a : Nat) : Option Byte := cellsRead m.cells a

/-- A list of cells with one byte written, in the rising order. -/
def cellsWrite : List Host.Cell → Nat → Byte → List Host.Cell
  | [], a, b => [(a, b)]
  | c :: cs, a, b => if c.1 < a then c :: cellsWrite cs a b else if c.1 = a then (a, b) :: cs else (a, b) :: c :: cs

/-- Memory with one byte written. -/
def Memory.write (m : Memory) (a : Nat) (b : Byte) : Memory := ⟨cellsWrite m.cells a b⟩

/-- Memory with bytes written at ascending addresses from `a`. -/
def Memory.writeBytes (m : Memory) (a : Nat) : List Byte → Memory
  | [] => m
  | b :: bs => (m.write a b).writeBytes (a + 1) bs

/-- The byte a read by the block returns: the byte memory holds, or any value (70_reset_and_hazards.md R442). -/
def Memory.byteAt (m : Memory) (a : Nat) : Byte := (m.read a).getD (Config.powerOnByte a)

/-! ### Regions -/

/-- The number of slots `N` (00_scope.md R6). -/
def State.numSlots (s : State) : Nat := s.slots.length

/-- The address of the command slot `i` (20_memory.md R81). -/
def State.cmdAddr (s : State) (i : Nat) : Nat := s.params.cmdBase + 64 * i

/-- The address of the status byte of slot `i` (R81). -/
def State.statusAddr (s : State) (i : Nat) : Nat := s.params.statusBase + i

/-- The address of the extended status of slot `i` (R81). -/
def State.extAddr (s : State) (i : Nat) : Nat := s.params.extBase + 8 * i

/-- Two address ranges, each a base and a size, share no address. -/
def rangesApart (a m b n : Nat) : Bool := decide (a + m ≤ b) || decide (b + n ≤ a)

/-- The parameters are a configuration the block accepts (00_scope.md R6, R7; 20_memory.md R81, R82, R84;
30_encoding.md R117). -/
def State.configOk (s : State) : Bool :=
  let n := s.numSlots
  let p := s.params
  decide (1 ≤ n) && decide (n ≤ 256) && decide (p.r < n) && decide (p.cmdBase % 64 = 0) && decide (p.extBase % 8 = 0)
    && rangesApart p.cmdBase (64 * n) p.statusBase n && rangesApart p.cmdBase (64 * n) p.extBase (8 * n)
    && rangesApart p.statusBase n p.extBase (8 * n) && decide (p.cmdBase + 64 * n ≤ 2 ^ p.addrBits)
    && decide (p.statusBase + n ≤ 2 ^ p.addrBits) && decide (p.extBase + 8 * n ≤ 2 ^ p.addrBits) && p.layout.admissible

/-- `ReadStatus(i)` (20_memory.md R86). -/
def State.readStatus (s : State) (i : Nat) : Byte := s.mem.byteAt (s.statusAddr i)

/-- `ReadExt(i)` (20_memory.md R86): eight bytes, little-endian (R83). -/
def State.readExt (s : State) (i : Nat) : Word :=
  let a := s.extAddr i
  wordOfBytes (s.mem.byteAt a) (s.mem.byteAt (a + 1)) (s.mem.byteAt (a + 2)) (s.mem.byteAt (a + 3))
    (s.mem.byteAt (a + 4)) (s.mem.byteAt (a + 5)) (s.mem.byteAt (a + 6)) (s.mem.byteAt (a + 7))

/-- `WriteCmd(i, W)` (20_memory.md R85): the eight words in ascending order, then the fence, which in one
core that runs its operations in order has no further effect (R93); the write submits the command (R87). -/
def State.writeCmd (s : State) (i : Nat) (W : CmdWord) : State :=
  { s with mem := s.mem.writeBytes (s.cmdAddr i) W.bytes, submitted := s.submitted ++ [(i, W)] }

/-- What the device writes (20_memory.md R90), in a slot that exists. -/
def State.deviceWrite (s : State) (w : DeviceWrite) : Host.Outcome State Fault Refusal :=
  match w with
  | .status i b =>
    if i < s.numSlots then .next { s with mem := s.mem.writeBytes (s.statusAddr i) [b] } else .fault (.deviceOutsideRegions i)
  | .ext i v =>
    if i < s.numSlots then .next { s with mem := s.mem.writeBytes (s.extAddr i) (wordBytes v) }
    else .fault (.deviceOutsideRegions i)

/-! ### Slots and tokens -/

/-- Slot `i` of the table. -/
def State.slotAt (s : State) (i : Nat) : Slot := s.slots.getD i Slot.reset

/-- `tok[i]`. -/
def State.tokAt (s : State) (i : Nat) : Token := (s.slotAt i).tok

/-- Slot `i` updated. -/
def State.modSlot (s : State) (i : Nat) (f : Slot → Slot) : State := { s with slots := s.slots.modify i f }

/-- `tok[i]` updated. -/
def State.modTok (s : State) (i : Nat) (f : Token → Token) : State :=
  s.modSlot i fun sl => { sl with tok := f sl.tok }

/-- `slot_ctr[i]` updated. -/
def State.modCtr (s : State) (i : Nat) (f : RetryCtr → RetryCtr) : State :=
  s.modSlot i fun sl => { sl with ctr := f sl.ctr }

/-- `ttype(i)` (10_state.md R33). -/
def State.ttype (s : State) (i : Nat) : TokenType := if i < s.numSlots - s.params.r then .general else .reserved

/-- The free general slots, ascending (41_token_pool.md R240, R241). -/
def State.freeGeneral (s : State) : List Nat :=
  (List.range (s.numSlots - s.params.r)).filter fun i => decide ((s.tokAt i).st = .free)

/-- `choose(F)`: a draw among the free general slots (41_token_pool.md R241).  Draw `d` takes the element
at `d` modulo the number of elements, so 0 is the reference choice, the lowest-numbered slot; where the
state holds no draw, the draw is a free value. -/
def State.chooseFrom (s : State) (F : List Nat) : Nat :=
  F.getD ((s.draws.headD (Config.freeDraw s.drawCount)) % F.length) 0

/-- The state after a draw has been made. -/
def State.drawn (s : State) : State := { s with draws := s.draws.tail, drawCount := s.drawCount + 1 }

/-! ### Response, events and counters -/

/-- An operation begins with an empty response. -/
def State.begin (s : State) : State := { s with resp := Response.empty }

/-- `emit E` (00_scope.md R15). -/
def State.emit (s : State) (e : Event) : State := { s with resp := { s.resp with events := s.resp.events ++ [e] } }

/-- `return done = d, result = r`. -/
def State.respond (s : State) (d : Bool) (r : Result) : State :=
  { s with resp := { s.resp with done := some d, result := some r } }

/-- `return slot = i`. -/
def State.respondSlot (s : State) (i : Nat) : State := { s with resp := { s.resp with slot := some i } }

/-- `return word = W`. -/
def State.respondWord (s : State) (W : CmdWord) : State := { s with resp := { s.resp with word := some W } }

/-- Count in `stats` (10_state.md R48). -/
def State.count (s : State) (f : Stats → Stats) : State := { s with stats := f s.stats }

/-- `raise E`: the operation ends with the error and nothing else of the state is written
(00_scope.md R15, 60_exceptions.md R407). -/
def State.raise (s : State) (e : OpError) : State := { s with resp := { Response.empty with err := some e } }

/-- The outcome of an operation begun in `s`: its effect, or its error raised in `s`. -/
def State.answer (s : State) (r : Except OpError State) : Host.Outcome State Fault Refusal :=
  match r with
  | .ok t => .next t
  | .error e => .next (s.raise e)

/-- `last_now <- now` (60_exceptions.md R404). -/
def State.atTime (s : State) (now : Nat) : State := { s with lastNow := now }

/-- `refresh_time[t]` (10_state.md R45). -/
def State.refreshTime (s : State) (t : TokenType) : Option Nat :=
  match t with
  | .general => s.refreshGeneral
  | .reserved => s.refreshReserved

/-- `refresh_time[t] <- some now`. -/
def State.setRefreshTime (s : State) (t : TokenType) (now : Nat) : State :=
  match t with
  | .general => { s with refreshGeneral := some now }
  | .reserved => { s with refreshReserved := some now }

/-- The result of a decode rule: `result <- r; why <- some w`. -/
def State.setResult (s : State) (i : Nat) (r : Result) (w : Reason) : State :=
  s.modTok i fun t => { t with result := r, why := some w }

/-- `abort_hard(i, why)` (60_exceptions.md R410): the whole device enters run state DEAD. -/
def State.abortHard (s : State) (i : Nat) (why : Reason) : State :=
  ({ s.setResult i .abortHard why with run := .dead }).emit (.halted i why)

/-- Bytes on the port that decode to no instruction: a reserved op code or a malformed request raises
BAD_OP (60_exceptions.md R405, 70_reset_and_hazards.md R440), a reserved or pseudo opcode BAD_OPCODE
(30_encoding.md R132, R133), and a word no encoder builds is refused by name. -/
def State.rejectRequest (s : State) (e : DecodeError) : Host.Outcome State Fault Refusal :=
  match e with
  | .reservedOp | .malformedRequest => .next (s.raise .badOp)
  | .reservedOpcode | .pseudoOpcode => .next (s.raise .badOpcode)
  | .commandLength | .reservedBits | .notMirrored | .mixedPolarity | .checksumMsbs | .deallocForm | .duplicatedPassthrough =>
    .refused (.malformedCommandWord e)

end Sys2Proof.Machine
end

