-- ==== Sys2Proof/Machine/Flags.lean ====
section
/-! DEFINITION. The flags and tests the block computes.  It has no flags register (40_cmdgen.md R175); what
it tests are the fields of a status byte (30_encoding.md R140), freshness (42_status_decoder.md R284),
retry budgets (10_state.md R64), deadlines (43_timeout_ooo.md R370) and the command filter (00_scope.md R10). -/

namespace Sys2Proof

/-- `b.CODE` (R140).  DESIGN CHOICE for this and the next three (notes/assumptions/27.md): a bit past the byte is 0. -/
def Layout.stCode (L : Layout) (b : Byte) : BitVec 5 := b.extractLsb' L.stCodeLo 5

/-- `b.EXT` (R140). -/
def Layout.stExtend (L : Layout) (b : Byte) : Bool := b.getLsbD L.stExt

/-- `b.SODD` (R140). -/
def Layout.stPolarity (L : Layout) (b : Byte) : BitVec 1 := b.extractLsb' L.stSodd 1

/-- `b.SUCC` (R140). -/
def Layout.stSuccess (L : Layout) (b : Byte) : Bool := b.getLsbD L.stSucc

/-- `CUR_SEQ` of an OOO extended status (30_encoding.md R147), a bit past the value 0 (notes/assumptions/27.md); logged
only (43_timeout_ooo.md R380). -/
def Layout.extCurSeq (L : Layout) (v : Word) : BitVec 32 := v.extractLsb' L.extCurLo 32

/-- `MISS_SEQ` of an OOO extended status (R147), a bit past the value 0 (notes/assumptions/27.md). -/
def Layout.extMissSeq (L : Layout) (v : Word) : BitVec 32 := v.extractLsb' L.extMissLo 32

/-- `FC`, the low byte of an ILLEGAL_CMD extended status (R146). -/
def extFault (v : Word) : Byte := v.extractLsb' 0 8

/-- The timeouts of a class (10_state.md R61). -/
def Cfg.tmoTable (c : Cfg) (cls : Class) : StageTable :=
  match cls with
  | .read => c.tmoRead
  | .write => c.tmoWrite
  | .control => c.tmoControl

/-- `cfg.tmo[cls][g]`; a token that has reported no stage uses QUEUED (43_timeout_ooo.md R361). -/
def Cfg.tmo (c : Cfg) (cls : Class) (g : Stage) : Nat :=
  match g with
  | .issued | .queued => (c.tmoTable cls).queued
  | .received => (c.tmoTable cls).received
  | .waitDev => (c.tmoTable cls).waitDev

/-- `cfg.ooo_quick[cls]` (10_state.md R60). -/
def Cfg.oooQuick (c : Cfg) (cls : Class) : Nat :=
  match cls with
  | .read => c.oooQuickRead
  | .write => c.oooQuickWrite
  | .control => c.oooQuickControl

/-- The place of a stage in the order `QUEUED < RECEIVED < WAIT_DEV` (42_status_decoder.md R302). -/
def Stage.rank : Stage → Nat
  | .issued => 0
  | .queued => 1
  | .received => 2
  | .waitDev => 3

/-- The stage has reached the configured commit level (R302). -/
def CommitStage.reached (c : CommitStage) (g : Stage) : Bool :=
  match c with
  | .never => false
  | .queued => decide (1 ≤ g.rank)
  | .received => decide (2 ≤ g.rank)
  | .waitDev => decide (3 ≤ g.rank)

end Sys2Proof

namespace Sys2Proof.Machine

open Sys2Proof

/-- `can_retry(i, XSUM)` (10_state.md R64), after the count. -/
def State.canRetryXsum (s : State) (i : Nat) : Bool := decide ((s.slotAt i).ctr.xsum ≤ s.params.cfg.maxXsum)

/-- `can_retry(i, WEP)` (R64). -/
def State.canRetryWep (s : State) (i : Nat) : Bool := decide ((s.slotAt i).ctr.wep ≤ s.params.cfg.maxWep)

/-- `can_retry(i, ECC)` (R64). -/
def State.canRetryEcc (s : State) (i : Nat) : Bool := decide ((s.slotAt i).ctr.ecc ≤ s.params.cfg.maxEcc)

/-- The command filter allows a finalized word in the current run state (00_scope.md R10, 41_token_pool.md R256). -/
def State.filterAllows (s : State) (W : CmdWord) : Bool :=
  match s.params.filter with
  | .unknown => Config.cmdFilter s.run W
  | .denying l => !l.contains ((W.getField s.params.layout.opc).setWidth 8)

/-- The deadline `armed_time + tmo_dur` has elapsed, equality included (43_timeout_ooo.md R370). -/
def Token.elapsed (t : Token) (now : Nat) : Bool := decide (t.armedTime + t.tmoDur ≤ now)

/-- A command shows no status update since its last issue, for longer than the threshold, with budget left
(43_timeout_ooo.md R362). -/
def Token.looksLost (t : Token) (c : Cfg) (now : Nat) : Bool :=
  decide (c.lostThresh ≠ 0)
    && (match t.touchedTime with | none => true | some u => decide (u < t.issueTime))
    && decide (t.issueTime + c.lostThresh < now) && decide (t.lostRefreshes < c.lostMax)

end Sys2Proof.Machine
end

