-- ==== Sys2Proof/Machine/Operands.lean ====
section
/-! DEFINITION. The operand forms of the encoder: kinds, buffer ids, direction and size, the header word,
the ATA passthrough command (spec/40_cmdgen.md R170-R174, R200-R204). -/

namespace Sys2Proof

/-! ### Class and direction of an opcode -/

/-- The decode path of an opcode (30_encoding.md R131). -/
def Opcode.cls : Opcode → Class
  | .seqRead | .pageRead | .extRead | .testRead => .read
  | .pageWrite | .extWrite | .testWrite => .write
  | .null | .getReg | .putReg | .reset | .trim | .devStats | .devPassthru | .copy | .fwNull | .shutdown | .startup
  | .traceCtrl | .test | .seqAdvance | .debugLog | .extError | .fwDownload | .getParams | .setParams | .crashLog
  | .sataReinit | .cancel | .faultInject | .diagnostic => .control

/-- Whether an opcode is device-directed (30_encoding.md R131). -/
def Opcode.devdir : Opcode → Bool
  | .seqRead | .pageRead | .pageWrite | .extRead | .extWrite | .trim | .devPassthru | .copy | .seqAdvance => true
  | .null | .getReg | .putReg | .reset | .devStats | .fwNull | .shutdown | .startup | .traceCtrl | .test | .debugLog
  | .extError | .fwDownload | .getParams | .setParams | .crashLog | .testRead | .testWrite | .sataReinit | .cancel
  | .faultInject | .diagnostic => false

/-- The opcodes `K_RAW` builds (40_cmdgen.md R209). -/
def Opcode.builtByRaw : Opcode → Bool
  | .seqRead | .devStats | .copy | .fwNull | .startup | .traceCtrl | .test | .debugLog | .extError | .fwDownload
  | .crashLog | .testRead | .testWrite | .faultInject | .diagnostic => true
  | .null | .getReg | .putReg | .reset | .pageRead | .pageWrite | .extRead | .extWrite | .trim | .devPassthru
  | .shutdown | .seqAdvance | .getParams | .setParams | .sataReinit | .cancel => false

/-! ### Operands in a Command Word -/

/-- The transfer length a header stands for on one side: `512 << DSIZE` when the direction bit is set
(30_encoding.md R119, R120). -/
def CmdHdr.len (h : CmdHdr) (bit : Nat) : Nat := if h.dir.getLsbD bit then 512 <<< h.dsize.toNat else 0

/-- A request with the operands of a Command Word's header.  `DIR = 3` stands for both lengths non-zero,
the bidirectional request of R119. -/
def BuildReq.withHdr (req : BuildReq) (h : CmdHdr) : BuildReq :=
  { req with h2dLen := h.len 0, d2hLen := h.len 1, msize := h.msize, hwOnly := h.hwOnly }

end Sys2Proof

namespace Sys2Proof.Machine

open Sys2Proof

/-! ### Kind codes (30_encoding.md R162) -/

/-- `K_READ`. -/
def kRead : Byte := 0
/-- `K_WRITE`. -/
def kWrite : Byte := 1
/-- `K_TRIM`. -/
def kTrim : Byte := 2
/-- `K_GET_REG`. -/
def kGetReg : Byte := 3
/-- `K_PUT_REG`. -/
def kPutReg : Byte := 4
/-- `K_GET_PARAMS`. -/
def kGetParams : Byte := 5
/-- `K_SET_PARAMS`. -/
def kSetParams : Byte := 6
/-- `K_PASSTHROUGH`. -/
def kPassthrough : Byte := 7
/-- `K_CANCEL`. -/
def kCancel : Byte := 8
/-- `K_RESET`. -/
def kReset : Byte := 9
/-- `K_NULL`. -/
def kNull : Byte := 10
/-- `K_SATA_REINIT`. -/
def kSataReinit : Byte := 11
/-- `K_SHUTDOWN`. -/
def kShutdown : Byte := 12
/-- `K_SEQ_ADVANCE`. -/
def kSeqAdvance : Byte := 13
/-- `K_RAW`. -/
def kRaw : Byte := 14

/-! ### Buffers, direction and size -/

/-- `buf(x)`: 0xFF for no buffer (30_encoding.md R123, 40_cmdgen.md R170). -/
def buf (x : Option Byte) : Byte := x.getD 0xFF

/-- The `Option` a buffer field of a Command Word stands for: 0xFF is no buffer (R123). -/
def bufField (b : Byte) : Option Byte := if b = 0xFF then none else some b

/-- The direction codes (30_encoding.md R119). -/
inductive Dir where
  | none
  | h2d
  | d2h
deriving DecidableEq, Repr

/-- The code of a direction (R119). -/
def Dir.code : Dir → BitVec 2
  | .none => 0
  | .h2d => 1
  | .d2h => 2

/-- What `dirsize` returns (40_cmdgen.md R173). -/
structure DirSize where
  dir : Dir
  dsz : BitVec 2
  len : Nat
deriving DecidableEq, Repr

/-- `log2(len / 512)` for the four valid sizes (R120, R173). -/
def sizeCode (len : Nat) : Option (BitVec 2) :=
  if len = 512 then some 0 else if len = 1024 then some 1 else if len = 2048 then some 2
  else if len = 4096 then some 3 else none

/-- `dirsize(req, need)` (40_cmdgen.md R173); `need = none` stands for ANY. -/
def dirsize (req : BuildReq) (need : Option Dir) : Except OpError DirSize :=
  if req.h2dLen ≠ 0 ∧ req.d2hLen ≠ 0 then .error .bidir
  else
    let len := req.h2dLen + req.d2hLen
    let dir : Dir := if req.h2dLen ≠ 0 then .h2d else if req.d2hLen ≠ 0 then .d2h else .none
    match dir, sizeCode len with
    | .none, _ => if need = Option.none ∨ need = some Dir.none then .ok ⟨.none, 0, len⟩ else .error .badDir
    | _, Option.none => .error .badSize
    | d, some z => if need = Option.none ∨ need = some d then .ok ⟨d, z, len⟩ else .error .badDir

/-! ### The header word -/

/-- The unfinalized Command Word of a header, SRC and DST: `hdr(opc, dir, dsz, dup)` in word 0 (40_cmdgen.md
R172), SRC and DST in words 1 and 2 (30_encoding.md R113), every other bit 0.  DESIGN CHOICE
(notes/assumptions/27.md): where fields overlap, the one written later has the bits: the header's first, then SRC, then
DST. -/
def builtWord (L : Layout) (req : BuildReq) (o : Opcode) (dir : Dir) (dsz : BitVec 2) (dup : Bool) (src dst : BitVec 56) : CmdWord :=
  (((((((((CmdWord.zero.setField L.opc ((L.opcode o).setWidth 64)).setField L.dir (dir.code.setWidth 64)).setField L.hwOnly
    (req.hwOnly.setWidth 64)).setField L.dupChk (if dup then 1 else 0)).setField L.dsize (dsz.setWidth 64)).setField L.msize
    (req.msize.setWidth 64)).setField L.src (src.setWidth 64)).setField L.dst (dst.setWidth 64)))

/-- The block count of a transfer in a buffer field (30_encoding.md R122): 0 for a full page. -/
def blockCount (len : Nat) : Byte := if len = 4096 then 0 else BitVec.ofNat 8 (len / 512)

/-- The DST of a read (40_cmdgen.md R176). -/
def readDst (coreBuf : Option Byte) (bcnt : Byte) : BitVec 56 :=
  (buf coreBuf).setWidth 56 ||| bcnt.setWidth 56 <<< 8

/-- The SRC of a write (40_cmdgen.md R180, R181). -/
def writeSrc (wbuf0 wbuf1 wbuf2 : Option Byte) (bcnt : Byte) : BitVec 56 :=
  (buf wbuf0).setWidth 56 ||| bcnt.setWidth 56 <<< 8 ||| (buf wbuf1).setWidth 56 <<< 16 ||| (buf wbuf2).setWidth 56 <<< 24

/-! ### The ATA passthrough command -/

/-- `check_form(cdb)` (40_cmdgen.md R201). -/
def checkForm (cdb : List Byte) : Bool :=
  (cdb.head? = some 0x85 && cdb.length = 16) || (cdb.head? = some 0xA1 && cdb.length = 12)

/-- The protocol sub-field `cdb[1][4:1]` (R202). -/
def cdbProtocol (cdb : List Byte) : BitVec 4 := (cdb.getD 1 0).extractLsb' 1 4

/-- `proto_dir` by protocol value (R203). -/
def protoDir (p : BitVec 4) : Except OpError Dir :=
  if p = 3 then .ok .none else if p = 4 then .ok .d2h else if p = 5 then .ok .h2d else .error .badProtocol

/-- Bytes as one number, the first lowest. -/
def bytesLE : List Byte → Nat
  | [] => 0
  | b :: bs => b.toNat + 256 * bytesLE bs

/-- `embed(cdb)` (R204): bytes 0-6, 7-13 and 14-15 of the command padded to sixteen bytes. -/
def embedAux0 (cdb : List Byte) : BitVec 56 := BitVec.ofNat 56 (bytesLE (cdb.take 7))
/-- `AUX1` of R204. -/
def embedAux1 (cdb : List Byte) : BitVec 56 := BitVec.ofNat 56 (bytesLE ((cdb.drop 7).take 7))
/-- `AUX2` of R204. -/
def embedAux2 (cdb : List Byte) : BitVec 56 := BitVec.ofNat 56 (bytesLE ((cdb.drop 14).take 2))

/-- The ATA command of the sixteen embedded bytes: twelve bytes in the 0xA1 form (R201, R204). -/
def cdbList (cdb : BitVec 128) : List Byte :=
  let bs := (List.range 16).map fun k => cdbByte cdb k
  if cdbByte cdb 0 = 0xA1 then bs.take 12 else bs

end Sys2Proof.Machine
end

