-- ==== Sys2Proof/Machine/Encoder.lean ====
section
/-! DEFINITION. The command encoder (spec/40_cmdgen.md): `build` for every kind (R171-R209), `finalize`
(R225-R231), and the one operation the command opcodes share. -/

namespace Sys2Proof.Machine

open Sys2Proof

/-- `K_READ` (R175): the opcode by the length alone. -/
def buildRead (L : Layout) (c : Cfg) (req : BuildReq) : Except OpError CmdWord :=
  match dirsize req (some .d2h) with
  | .error e => .error e
  | .ok d =>
    .ok (builtWord L req (if d.len = 4096 then .pageRead else .extRead) .d2h d.dsz c.dupcheck req.lba
      (readDst req.coreBuf (blockCount d.len)))

/-- `K_WRITE` (R180): the opcode by the length alone, whatever the buddy (90_conflicts.md C2). -/
def buildWrite (L : Layout) (c : Cfg) (req : BuildReq) : Except OpError CmdWord :=
  match dirsize req (some .h2d) with
  | .error e => .error e
  | .ok d =>
    .ok (builtWord L req (if d.len = 4096 then .pageWrite else .extWrite) .h2d d.dsz c.dupcheck
      (writeSrc req.wbuf0 req.wbuf1 req.wbuf2 (blockCount d.len)) req.lba)

/-- A control kind that carries no data (section 3): any length is rejected. -/
def buildNoData (L : Layout) (c : Cfg) (req : BuildReq) (o : Opcode) (src dst : BitVec 56) : Except OpError CmdWord :=
  match dirsize req (some .none) with
  | .error e => .error e
  | .ok _ => .ok (builtWord L req o .none 0 c.dupcheck src dst)

/-- `K_GET_PARAMS` (R187). -/
def buildGetParams (L : Layout) (c : Cfg) (req : BuildReq) : Except OpError CmdWord :=
  match dirsize req (some .d2h) with
  | .error e => .error e
  | .ok d => .ok (builtWord L req .getParams .d2h d.dsz c.dupcheck (req.param.setWidth 56) ((buf req.coreBuf).setWidth 56))

/-- `K_SET_PARAMS` (R188). -/
def buildSetParams (L : Layout) (c : Cfg) (req : BuildReq) : Except OpError CmdWord :=
  match dirsize req (some .h2d) with
  | .error e => .error e
  | .ok d => .ok (builtWord L req .setParams .h2d d.dsz c.dupcheck ((buf req.wbuf0).setWidth 56) (req.param.setWidth 56))

/-- `K_SEQ_ADVANCE` (R197): the lengths are checked before the count. -/
def buildSeqAdvance (L : Layout) (c : Cfg) (req : BuildReq) : Except OpError CmdWord :=
  match dirsize req (some .none) with
  | .error e => .error e
  | .ok _ =>
    if req.seqCount = 0 ∨ 2 ^ 32 ≤ req.seqCount then .error .badSeqCount
    else .ok (builtWord L req .seqAdvance .none 0 c.dupcheck (BitVec.ofNat 56 req.seqCount) 0)

/-- `K_PASSTHROUGH` (R200): `DUPCHK = 0` always; the form and the protocol are checked before the lengths. -/
def buildPassthrough (L : Layout) (req : BuildReq) : Except OpError CmdWord :=
  if checkForm req.cdb = false then .error .badPtOpcode
  else
    match protoDir (cdbProtocol req.cdb) with
    | .error e => .error e
    | .ok dir =>
      match dirsize req (some dir) with
      | .error e => .error e
      | .ok d =>
        .ok ((((builtWord L req .devPassthru dir d.dsz false ((buf req.wbuf0).setWidth 56) ((buf req.coreBuf).setWidth 56)).setField
          L.aux0 ((embedAux0 req.cdb).setWidth 64)).setField L.aux1 ((embedAux1 req.cdb).setWidth 64)).setField L.aux2
          ((embedAux2 req.cdb).setWidth 64))

/-- `K_RAW` (R209): the opcodes that have no kind of their own. -/
def buildRaw (L : Layout) (c : Cfg) (req : BuildReq) : Except OpError CmdWord :=
  match L.opcodeOf req.rawOpcode with
  | none => .error .badOpcode
  | some o =>
    if o.builtByRaw = false then .error .badOpcode
    else
      match dirsize req none with
      | .error e => .error e
      | .ok d => .ok (builtWord L req o d.dir d.dsz c.dupcheck req.rawSrc req.rawDst)

/-- `build(req)` (R171). -/
def buildWord (L : Layout) (c : Cfg) (req : BuildReq) : Except OpError CmdWord :=
  if 14 < req.kind.toNat then .error .badKind
  else if req.msize = 3 then .error .badMsize
  else if req.kind = kRead then buildRead L c req
  else if req.kind = kWrite then buildWrite L c req
  else if req.kind = kTrim then buildNoData L c req .trim req.lba (req.count.setWidth 56)
  else if req.kind = kGetReg then buildNoData L c req .getReg req.reg 0
  else if req.kind = kPutReg then buildNoData L c req .putReg req.value req.reg
  else if req.kind = kGetParams then buildGetParams L c req
  else if req.kind = kSetParams then buildSetParams L c req
  else if req.kind = kPassthrough then buildPassthrough L req
  else if req.kind = kCancel then buildNoData L c req .cancel (req.target.setWidth 56) 0
  else if req.kind = kReset then buildNoData L c req .reset 0 0
  else if req.kind = kNull then buildNoData L c req .null 0 0
  else if req.kind = kSataReinit then buildNoData L c req .sataReinit 0 0
  else if req.kind = kShutdown then buildNoData L c req .shutdown 0 0
  else if req.kind = kSeqAdvance then buildSeqAdvance L c req
  else buildRaw L c req

/-- Bit `hi` of the checksum placed at bit `at` of word 5 (R230). -/
def setMsb (W : CmdWord) (at' : Nat) (x : BitVec 128) (hi : Nat) : CmdWord :=
  W.setField ⟨5, at', 1⟩ ((x.extractLsb' hi 1).setWidth 64)

/-- `finalize(W, odd, slot, seq, dealloc, x)` (R225), the steps in the rule's order. -/
def finalize (L : Layout) (W : CmdWord) (odd : BitVec 1) (slot : Byte) (seq : BitVec 32) (dealloc : Option (BitVec 5))
    (x : BitVec 128) : CmdWord :=
  let W := W.setField L.slot (slot.setWidth 64)
  let W :=
    match dealloc with
    | some d => (W.setField L.deallocV 1).setField L.deallocId (d.setWidth 64)
    | none => (W.setField L.deallocV 0).setField L.deallocId 0
  let W := W.setField L.seq (seq.setWidth 64)
  let W := if W.getField L.dupChk = 1 then { W with w3 := W.w0, w4 := W.w1, w5 := W.w2 } else W
  let W := (W.setField L.xsumLo (x.extractLsb' 0 64)).setField L.xsumHi (x.extractLsb' 64 64)
  let W := setMsb (setMsb W 62 x L.msb0) 63 x L.msb1
  L.polarity.foldl (fun W p => W.setField (polarityField p) (odd.setWidth 64)) W

/-- The encoder run on the operands of a Command Word: `build` on the request they make and `finalize` with
the word's own stamp; the response is the word, or the rejection.  Neither writes any other state
(section 0 of 40_cmdgen.md, R171, R225). -/
def State.encodeCommand (s : State) (h : CmdHdr) (st : Stamp) (req : BuildReq) : Host.Outcome State Fault Refusal :=
  s.answer
    (match buildWord s.params.layout s.params.cfg (req.withHdr h) with
    | .error e => .error e
    | .ok W => .ok (s.begin.respondWord (finalize s.params.layout W st.odd st.slot st.seq st.dealloc st.xsum)))

end Sys2Proof.Machine
end

