-- ==== Sys2Proof/Machine/CommandControl.lean ====
section
/-! DEFINITION. The control commands (40_cmdgen.md R184-R186, R192-R197) and the ATA passthrough (R200): each is the encoder run on the operands of its Command Word. -/

namespace Sys2Proof.Machine

open Sys2Proof

/-- NULL (R194). -/
def execNull (h : CmdHdr) (st : Stamp) (s : State) : Host.Outcome State Fault Refusal :=
  s.encodeCommand h st { BuildReq.blank with kind := kNull }

/-- GET_REG (R184). -/
def execGetReg (h : CmdHdr) (reg : BitVec 56) (st : Stamp) (s : State) : Host.Outcome State Fault Refusal :=
  s.encodeCommand h st { BuildReq.blank with kind := kGetReg, reg := reg }

/-- PUT_REG (R185). -/
def execPutReg (h : CmdHdr) (value reg : BitVec 56) (st : Stamp) (s : State) : Host.Outcome State Fault Refusal :=
  s.encodeCommand h st { BuildReq.blank with kind := kPutReg, value := value, reg := reg }

/-- RESET, the device command (R193; the operation RESET is R440). -/
def execCmdReset (h : CmdHdr) (st : Stamp) (s : State) : Host.Outcome State Fault Refusal :=
  s.encodeCommand h st { BuildReq.blank with kind := kReset }

/-- TRIM (R186). -/
def execTrim (h : CmdHdr) (lba : BitVec 56) (count : BitVec 32) (st : Stamp) (s : State) : Host.Outcome State Fault Refusal :=
  s.encodeCommand h st { BuildReq.blank with kind := kTrim, lba := lba, count := count }

/-- SHUTDOWN (R196). -/
def execShutdown (h : CmdHdr) (st : Stamp) (s : State) : Host.Outcome State Fault Refusal :=
  s.encodeCommand h st { BuildReq.blank with kind := kShutdown }

/-- SATA_REINIT (R195). -/
def execSataReinit (h : CmdHdr) (st : Stamp) (s : State) : Host.Outcome State Fault Refusal :=
  s.encodeCommand h st { BuildReq.blank with kind := kSataReinit }

/-- CANCEL (R192). -/
def execCancel (h : CmdHdr) (target : Byte) (st : Stamp) (s : State) : Host.Outcome State Fault Refusal :=
  s.encodeCommand h st { BuildReq.blank with kind := kCancel, target := target }

/-- SEQ_ADVANCE (R197). -/
def execSeqAdvance (h : CmdHdr) (seqCount : BitVec 56) (st : Stamp) (s : State) : Host.Outcome State Fault Refusal :=
  s.encodeCommand h st { BuildReq.blank with kind := kSeqAdvance, seqCount := seqCount.toNat }

/-- DEV_PASSTHRU (R200). -/
def execDevPassthru (h : CmdHdr) (wbuf0 coreBuf : Byte) (cdb : BitVec 128) (st : Stamp) (s : State) : Host.Outcome State Fault Refusal :=
  s.encodeCommand h st { BuildReq.blank with kind := kPassthrough, wbuf0 := bufField wbuf0, coreBuf := bufField coreBuf, cdb := cdbList cdb }

end Sys2Proof.Machine
end

