-- ==== Sys2Proof/Machine/CommandData.lean ====
section
/-! DEFINITION. The data transfer commands (40_cmdgen.md R175-R183) and the two parameter commands (R187, R188): each is the encoder run on the operands of its Command Word. -/

namespace Sys2Proof.Machine

open Sys2Proof

/-- PAGE_READ (R177): `K_READ` on the word's lba, size and core buffer. -/
def execPageRead (h : CmdHdr) (lba : BitVec 56) (_bcnt coreBuf : Byte) (st : Stamp) (s : State) : Host.Outcome State Fault Refusal :=
  s.encodeCommand h st { BuildReq.blank with kind := kRead, lba := lba, coreBuf := bufField coreBuf }

/-- EXT_READ (R178): `K_READ`; the encoder writes the block count its size gives. -/
def execExtRead (h : CmdHdr) (lba : BitVec 56) (_bcnt coreBuf : Byte) (st : Stamp) (s : State) : Host.Outcome State Fault Refusal :=
  s.encodeCommand h st { BuildReq.blank with kind := kRead, lba := lba, coreBuf := bufField coreBuf }

/-- PAGE_WRITE (R182): `K_WRITE` on the word's lba, size and write buffers. -/
def execPageWrite (h : CmdHdr) (wbuf0 _bcnt wbuf1 wbuf2 : Byte) (lba : BitVec 56) (st : Stamp) (s : State) : Host.Outcome State Fault Refusal :=
  s.encodeCommand h st
    { BuildReq.blank with kind := kWrite, lba := lba, wbuf0 := bufField wbuf0, wbuf1 := bufField wbuf1, wbuf2 := bufField wbuf2 }

/-- EXT_WRITE (R183): `K_WRITE`; the encoder writes the block count its size gives. -/
def execExtWrite (h : CmdHdr) (wbuf0 _bcnt wbuf1 wbuf2 : Byte) (lba : BitVec 56) (st : Stamp) (s : State) : Host.Outcome State Fault Refusal :=
  s.encodeCommand h st
    { BuildReq.blank with kind := kWrite, lba := lba, wbuf0 := bufField wbuf0, wbuf1 := bufField wbuf1, wbuf2 := bufField wbuf2 }

/-- GET_PARAMS (R187). -/
def execGetParams (h : CmdHdr) (param : BitVec 32) (coreBuf : Byte) (st : Stamp) (s : State) : Host.Outcome State Fault Refusal :=
  s.encodeCommand h st { BuildReq.blank with kind := kGetParams, param := param, coreBuf := bufField coreBuf }

/-- SET_PARAMS (R188). -/
def execSetParams (h : CmdHdr) (wbuf0 : Byte) (param : BitVec 32) (st : Stamp) (s : State) : Host.Outcome State Fault Refusal :=
  s.encodeCommand h st { BuildReq.blank with kind := kSetParams, param := param, wbuf0 := bufField wbuf0 }

end Sys2Proof.Machine
end

