-- ==== Sys2Proof/Machine/CommandRaw.lean ====
section
/-! DEFINITION. The opcodes without a kind of their own (40_cmdgen.md R209-R224): the encoder's `K_RAW` on the opcode and the SRC and DST of the Command Word, which the caller supplies. -/

namespace Sys2Proof.Machine

open Sys2Proof

/-- The `K_RAW` request of an opcode (R209). -/
def rawReq (L : Layout) (o : Opcode) (src dst : BitVec 56) : BuildReq :=
  { BuildReq.blank with kind := kRaw, rawOpcode := L.opcode o, rawSrc := src, rawDst := dst }

/-- SEQ_READ (R210). -/
def execSeqRead (h : CmdHdr) (src dst : BitVec 56) (st : Stamp) (s : State) : Host.Outcome State Fault Refusal :=
  s.encodeCommand h st (rawReq s.params.layout .seqRead src dst)

/-- DEV_STATS (R211). -/
def execDevStats (h : CmdHdr) (src dst : BitVec 56) (st : Stamp) (s : State) : Host.Outcome State Fault Refusal :=
  s.encodeCommand h st (rawReq s.params.layout .devStats src dst)

/-- COPY (R212). -/
def execCopy (h : CmdHdr) (src dst : BitVec 56) (st : Stamp) (s : State) : Host.Outcome State Fault Refusal :=
  s.encodeCommand h st (rawReq s.params.layout .copy src dst)

/-- FW_NULL (R213). -/
def execFwNull (h : CmdHdr) (src dst : BitVec 56) (st : Stamp) (s : State) : Host.Outcome State Fault Refusal :=
  s.encodeCommand h st (rawReq s.params.layout .fwNull src dst)

/-- STARTUP (R214). -/
def execStartup (h : CmdHdr) (src dst : BitVec 56) (st : Stamp) (s : State) : Host.Outcome State Fault Refusal :=
  s.encodeCommand h st (rawReq s.params.layout .startup src dst)

/-- TRACE_CTRL (R215). -/
def execTraceCtrl (h : CmdHdr) (src dst : BitVec 56) (st : Stamp) (s : State) : Host.Outcome State Fault Refusal :=
  s.encodeCommand h st (rawReq s.params.layout .traceCtrl src dst)

/-- TEST (R216). -/
def execTest (h : CmdHdr) (src dst : BitVec 56) (st : Stamp) (s : State) : Host.Outcome State Fault Refusal :=
  s.encodeCommand h st (rawReq s.params.layout .test src dst)

/-- DEBUG_LOG (R217). -/
def execDebugLog (h : CmdHdr) (src dst : BitVec 56) (st : Stamp) (s : State) : Host.Outcome State Fault Refusal :=
  s.encodeCommand h st (rawReq s.params.layout .debugLog src dst)

/-- EXT_ERROR (R218). -/
def execExtError (h : CmdHdr) (src dst : BitVec 56) (st : Stamp) (s : State) : Host.Outcome State Fault Refusal :=
  s.encodeCommand h st (rawReq s.params.layout .extError src dst)

/-- FW_DOWNLOAD (R219). -/
def execFwDownload (h : CmdHdr) (src dst : BitVec 56) (st : Stamp) (s : State) : Host.Outcome State Fault Refusal :=
  s.encodeCommand h st (rawReq s.params.layout .fwDownload src dst)

/-- CRASH_LOG (R220). -/
def execCrashLog (h : CmdHdr) (src dst : BitVec 56) (st : Stamp) (s : State) : Host.Outcome State Fault Refusal :=
  s.encodeCommand h st (rawReq s.params.layout .crashLog src dst)

/-- TEST_READ (R221). -/
def execTestRead (h : CmdHdr) (src dst : BitVec 56) (st : Stamp) (s : State) : Host.Outcome State Fault Refusal :=
  s.encodeCommand h st (rawReq s.params.layout .testRead src dst)

/-- TEST_WRITE (R222). -/
def execTestWrite (h : CmdHdr) (src dst : BitVec 56) (st : Stamp) (s : State) : Host.Outcome State Fault Refusal :=
  s.encodeCommand h st (rawReq s.params.layout .testWrite src dst)

/-- FAULT_INJECT (R223). -/
def execFaultInject (h : CmdHdr) (src dst : BitVec 56) (st : Stamp) (s : State) : Host.Outcome State Fault Refusal :=
  s.encodeCommand h st (rawReq s.params.layout .faultInject src dst)

/-- DIAGNOSTIC (R224). -/
def execDiagnostic (h : CmdHdr) (src dst : BitVec 56) (st : Stamp) (s : State) : Host.Outcome State Fault Refusal :=
  s.encodeCommand h st (rawReq s.params.layout .diagnostic src dst)

end Sys2Proof.Machine
end

