-- ==== Sys2Proof/Machine/Launch.lean ====
section
/-! DEFINITION. Binding a request to a token and issuing a command (41_token_pool.md R246, R251-R256). -/

namespace Sys2Proof.Machine

open Sys2Proof

/-- `cls` from the opcode's row (30_encoding.md R112, R131).  DESIGN CHOICE (notes/assumptions/27.md): CONTROL where the
opcode field names no row, as only a layout that is not `unambiguous` can have it. -/
def wordClass (L : Layout) (W : CmdWord) : Class :=
  match L.opcodeIn W with
  | some o => o.cls
  | none => .control

/-- `devdir` from the opcode's row (R131).  DESIGN CHOICE (notes/assumptions/27.md): not device-directed where the opcode
field names no row. -/
def wordDevdir (L : Layout) (W : CmdWord) : Bool :=
  match L.opcodeIn W with
  | some o => o.devdir
  | none => false

/-- `bind(i, req, W)` (R246), on the token. -/
def Token.bind (t : Token) (L : Layout) (req : BuildReq) (W : CmdWord) : Token :=
  { t with
    cmd := W, cls := wordClass L W, devdir := wordDevdir L W, h2dLen := req.h2dLen, d2hLen := req.d2hLen,
    coreBuf := req.coreBuf, wbuf0 := req.wbuf0, wbuf1 := req.wbuf1, wbuf2 := req.wbuf2, buddy := req.buddy,
    reqTag := req.reqTag, hostLive := req.hostLive, quiet := req.quiet, xferFromHost := decide (req.h2dLen ≠ 0) }

/-- The buddy of a request is out of range or the token itself (R245). -/
def State.badBuddy (s : State) (i : Nat) (req : BuildReq) : Bool :=
  match req.buddy with
  | some b => decide (s.numSlots ≤ b) || decide (b = i)
  | none => false

/-- What `assign_seq` returns (R253): whether the command gets a number, the number, and whether it is taken
from `seq_next`. -/
structure SeqGrant where
  has : Bool
  seq : BitVec 32
  fresh : Bool
deriving DecidableEq, Repr

/-- The sequence number a command shares with its active buddy, if there is one (R253). -/
def State.buddySeq (s : State) (t : Token) : Option (BitVec 32) :=
  match t.buddy with
  | some b => if (s.tokAt b).st = .active ∧ (s.tokAt b).hasSeq = true then some (s.tokAt b).seq else none
  | none => none

/-- `assign_seq(i)` (R253). -/
def State.assignSeq (s : State) (i : Nat) : SeqGrant :=
  if (s.tokAt i).devdir = false then ⟨false, 0, false⟩
  else
    match s.buddySeq (s.tokAt i) with
    | some q => ⟨true, q, false⟩
    | none => ⟨true, s.seqNext, true⟩

/-- The polarity of the next launch in slot `i`: the inverse of the slot's last (R252). -/
def State.nextOdd (s : State) (i : Nat) : BitVec 1 := (s.slotAt i).odd ^^^ 1

/-- The finalized word of the next launch in slot `i` (R251). -/
def State.launchWord (s : State) (i : Nat) : CmdWord :=
  finalize s.params.layout (s.tokAt i).cmd (s.nextOdd i) (BitVec.ofNat 8 i) (s.assignSeq i).seq (s.tokAt i).dealloc
    (s.tokAt i).xsum

/-- The token a launch leaves (R251-R255): polarity, sequence number, wire word, observation at issue, first
deadline, cleared recovery marks. -/
def Token.launched (t : Token) (c : Cfg) (o : BitVec 1) (g : SeqGrant) (W : CmdWord) (cache : Option Byte) (now : Nat) : Token :=
  { t with
    odd := o, hasSeq := g.has, seq := g.seq, wire := W, lastStatus := cache, extCache := none, issueTime := now,
    stage := .issued, armedTime := now, tmoDur := c.tmo t.cls .queued, lostRefreshes := 0, rdbufRecover := 0,
    oooMissing := false, oooReplay := false, seenInHw := false, st := .active, result := .notComplete, why := none }

/-- The token a denied command leaves (R256). -/
def Token.denied (t : Token) : Token := { t with st := .done, result := .abort, why := some .filterDeny }

/-- `launch(i, now)` (R251). -/
def State.launch (s : State) (i now : Nat) : State :=
  let g := s.assignSeq i
  let W := s.launchWord i
  if s.filterAllows W = false then (s.modTok i Token.denied).respond true .abort
  else
    let o := s.nextOdd i
    let s := if g.fresh then { s with seqNext := s.seqNext + 1 } else s
    let s := s.modSlot i fun sl => { sl with odd := o, tok := sl.tok.launched s.params.cfg o g W sl.cache now }
    let s := s.writeCmd i W
    ({ s with active := s.active ++ [i] }).respond false .notComplete

end Sys2Proof.Machine
end

