-- ==== Sys2Proof/Machine/Pool.lean ====
section
/-! DEFINITION. The token pool and its lifecycle (spec/41_token_pool.md), RESET (70_reset_and_hazards.md R440)
and the two encoder operations of the port (40_cmdgen.md R171, R225).  Each operation answers its effect or
the first error in the order of 60_exceptions.md R406. -/

namespace Sys2Proof.Machine

open Sys2Proof

/-! ### RESET and the encoder on the port -/

/-- RESET (R440): the block's own state; parameters, device memory and the port's supplies stay. -/
def State.doReset (s : State) : State :=
  { State.resetWith s.numSlots s.params with
    mem := s.mem, submitted := s.submitted, inputs := s.inputs, draws := s.draws, drawCount := s.drawCount }

/-- The operation RESET (R440). -/
def execOpReset (s : State) : Host.Outcome State Fault Refusal := .next s.doReset

/-- ENC_BUILD (R171): the response carries the unfinalized word, or the rejection. -/
def execEncBuild (req : BuildReq) (s : State) : Host.Outcome State Fault Refusal :=
  s.answer
    (match buildWord s.params.layout s.params.cfg req with
    | .error e => .error e
    | .ok W => .ok (s.begin.respondWord W))

/-- ENC_FINALIZE (R225): never rejects. -/
def execEncFinalize (w : CmdWord) (odd : BitVec 1) (slot : Byte) (seq : BitVec 32) (dealloc : Option (BitVec 5)) (xsum : BitVec 128)
    (s : State) : Host.Outcome State Fault Refusal :=
  .next (s.begin.respondWord (finalize s.params.layout w odd slot seq dealloc xsum))

/-! ### Allocation -/

/-- ALLOC (R240). -/
def State.opAlloc (s : State) (kind : Byte) (carry : Nat) : Except OpError State :=
  if s.freeGeneral = [] then .error .poolExhausted
  else
    let i := s.chooseFrom s.freeGeneral
    .ok ((s.drawn.modTok i fun t => { t with st := .allocated, allocKind := kind, ctrGeneric := carry }).respondSlot i)

/-- ALLOC (R240). -/
def execAlloc (kind : Byte) (carry : Nat) (s : State) : Host.Outcome State Fault Refusal :=
  s.answer (s.begin.opAlloc kind carry)

/-- ALLOC_ID (R242). -/
def State.opAllocId (s : State) (i : Nat) (kind : Byte) : Except OpError State :=
  if s.numSlots ≤ i then .error .badSlot
  else if (s.tokAt i).st ≠ .free then .error .slotBusy
  else .ok ((s.modTok i fun t => { t with st := .allocated, allocKind := kind, ctrGeneric := 0 }).respondSlot i)

/-- ALLOC_ID (R242). -/
def execAllocId (i : Nat) (kind : Byte) (s : State) : Host.Outcome State Fault Refusal :=
  s.answer (s.begin.opAllocId i kind)

/-! ### Binding, issue, re-issue -/

/-- BUILD (R245). -/
def State.opBuild (s : State) (i : Nat) (req : BuildReq) : Except OpError State :=
  if s.numSlots ≤ i then .error .badSlot
  else if (s.tokAt i).st ≠ .allocated ∧ (s.tokAt i).st ≠ .built then .error .badState
  else if s.badBuddy i req = true then .error .badBuddy
  else
    match buildWord s.params.layout s.params.cfg req with
    | .error e => .error e
    | .ok W => .ok (s.modTok i fun t => { t.bind s.params.layout req W with st := .built })

/-- BUILD (R245). -/
def execBuild (i : Nat) (req : BuildReq) (s : State) : Host.Outcome State Fault Refusal :=
  s.answer (s.begin.opBuild i req)

/-- ISSUE (R250). -/
def State.opIssue (s : State) (i : Nat) (dealloc : Option (BitVec 5)) (xsum : BitVec 128) (now : Nat) : Except OpError State :=
  if s.numSlots ≤ i then .error .badSlot
  else if now < s.lastNow then .error .timeRegression
  else if (s.tokAt i).st ≠ .built then .error .badState
  else if s.run = .dead then .error .deviceDead
  else .ok (((s.atTime now).modTok i fun t => { t with dealloc := dealloc, xsum := xsum }).launch i now)

/-- ISSUE (R250). -/
def execIssue (i : Nat) (dealloc : Option (BitVec 5)) (xsum : BitVec 128) (now : Nat) (s : State) : Host.Outcome State Fault Refusal :=
  s.answer (s.begin.opIssue i dealloc xsum now)

/-- The result is one REISSUE accepts (R257). -/
def Token.reissuable (t : Token) : Bool :=
  decide (t.st = .done) && (decide (t.result = .retry) || decide (t.result = .timeout))

/-- The replacement request of REISSUE bound to the token, or the same token (R257). -/
def State.rebind (s : State) (i : Nat) (req : Option BuildReq) : Except OpError State :=
  match req with
  | none => .ok s
  | some r =>
    if s.badBuddy i r = true then .error .badBuddy
    else
      match buildWord s.params.layout s.params.cfg r with
      | .error e => .error e
      | .ok W => .ok (s.modTok i fun t => t.bind s.params.layout r W)

/-- REISSUE (R257, R258): the generic budget is checked before the replacement request is built. -/
def State.opReissue (s : State) (i : Nat) (req : Option BuildReq) (now : Nat) : Except OpError State :=
  if s.numSlots ≤ i then .error .badSlot
  else if now < s.lastNow then .error .timeRegression
  else if (s.tokAt i).reissuable = false then .error .badState
  else if s.run = .dead then .error .deviceDead
  else if s.params.cfg.maxGeneric ≤ (s.tokAt i).ctrGeneric then
    .ok (((s.atTime now).setResult i .abort .budgetExhausted).respond true .abort)
  else
    match (s.atTime now).rebind i req with
    | .error e => .error e
    | .ok s => .ok ((s.modTok i fun t => { t with ctrGeneric := t.ctrGeneric + 1 }).launch i now)

/-- REISSUE (R257). -/
def execReissue (i : Nat) (req : Option BuildReq) (now : Nat) (s : State) : Host.Outcome State Fault Refusal :=
  s.answer (s.begin.opReissue i req now)

/-! ### Detach and release -/

/-- DETACH (R260). -/
def State.opDetach (s : State) (i : Nat) : Except OpError State :=
  if s.numSlots ≤ i then .error .badSlot
  else if (s.tokAt i).st = .free then .error .badState
  else .ok (s.modTok i fun t => { t with hostLive := false })

/-- DETACH (R260). -/
def execDetach (i : Nat) (s : State) : Host.Outcome State Fault Refusal := s.answer (s.begin.opDetach i)

/-- The event a release emits (R262). -/
def Token.releasedEvent (t : Token) (i : Nat) : Event := .released i t.coreBuf t.wbuf0 t.wbuf1 t.wbuf2 t.rdbuf

/-- RELEASE (R262): the slot's polarity and status cache stay (R263). -/
def State.opRelease (s : State) (i : Nat) : Except OpError State :=
  if s.numSlots ≤ i then .error .badSlot
  else if (s.tokAt i).st = .free ∨ (s.tokAt i).st = .active then .error .badState
  else if (s.tokAt i).hostLive = true then .error .hostAttached
  else
    .ok ((s.emit ((s.tokAt i).releasedEvent i)).modSlot i fun sl => { sl with tok := Token.reset, ctr := RetryCtr.zero })

/-- RELEASE (R262). -/
def execRelease (i : Nat) (s : State) : Host.Outcome State Fault Refusal := s.answer (s.begin.opRelease i)

/-! ### Status refresh -/

/-- The slots of a list with their status bytes read, those of type `t` only (R270). -/
def State.refreshSlots (s : State) (t : TokenType) : State :=
  { s with
    slots := s.slots.mapIdx fun i sl => if s.ttype i = t then { sl with cache := some (s.readStatus i) } else sl }

/-- STATUS_REFRESH (R270). -/
def State.opRefresh (s : State) (t : TokenType) (now : Nat) : Except OpError State :=
  if now < s.lastNow then .error .timeRegression
  else .ok (((s.atTime now).refreshSlots t).setRefreshTime t now)

/-- STATUS_REFRESH (R270). -/
def execStatusRefresh (t : TokenType) (now : Nat) (s : State) : Host.Outcome State Fault Refusal :=
  s.answer (s.begin.opRefresh t now)

end Sys2Proof.Machine
end

