-- ==== Sys2Proof/Machine/Recovery.lean ====
section
/-! DEFINITION. Lost commands, timeouts and out-of-order recovery (spec/43_timeout_ooo.md): steps 6 and 7 of
POLL, and the handling an OOO status calls. -/

namespace Sys2Proof.Machine

open Sys2Proof

/-- What `rewrite` does when the device is not dead (R360): the wire word again, unchanged. -/
def State.resend (s : State) (j : Nat) (cause : RewriteCause) (now : Nat) : State :=
  ((s.writeCmd j (s.tokAt j).wire).modTok j fun t => { t with issueTime := now }).emit (.rewrite j cause)

/-- `rewrite(j, cause, now)` (R360): in run state DEAD it does nothing (R387). -/
def State.rewrite (s : State) (j : Nat) (cause : RewriteCause) (now : Nat) : State :=
  if s.run = .dead then s else s.resend j cause now

/-- `armed_time <- now; tmo_dur <- d` on a token. -/
def Token.arm (t : Token) (now d : Nat) : Token := { t with armedTime := now, tmoDur := d }

/-- `stage_tmo(j)` (R361). -/
def State.stageTmo (s : State) (j : Nat) : Nat := s.params.cfg.tmo (s.tokAt j).cls (s.tokAt j).stage

/-! ### Lost commands -/

/-- `lost_check(i, now)` (R362, R387). -/
def State.lostCheck (s : State) (i now : Nat) : State :=
  if (s.tokAt i).looksLost s.params.cfg now = true ∧ s.run ≠ .dead then
    ((s.rewrite i .lost now).modTok i fun t => { t with lostRefreshes := t.lostRefreshes + 1 }).count
      fun c => { c with lostRefresh := c.lostRefresh + 1 }
  else s

/-! ### Timeouts -/

/-- The condition of the false-timeout guard (R372): no refresh of the token's type since the timeout was armed. -/
def State.starved (s : State) (i : Nat) : Bool :=
  match s.refreshTime (s.ttype i) with
  | none => true
  | some r => decide (r < (s.tokAt i).armedTime)

/-- `rdbuf_recover_applies(i)` (R373). -/
def State.rdbufRecoverApplies (s : State) (i : Nat) : Bool :=
  s.params.cfg.rdbufTracking && decide ((s.tokAt i).cls = .read) && decide ((s.tokAt i).stage = .queued)
    && decide ((s.tokAt i).rdbufRecover < s.params.cfg.rdbufRecoverMax)

/-- `recover(i, now)` (R373). -/
def State.recover (s : State) (i now : Nat) : State :=
  (s.emit (.recoverRdBufs i)).modTok i fun t =>
    { t.arm now (s.params.cfg.tmo .read .queued) with rdbufRecover := t.rdbufRecover + 1 }

/-- `ooo_timeout(i, now)` (R375): the expected timeout of a token marked missing, or of one marked for
delayed replay. -/
def State.oooTimeout (s : State) (i now : Nat) : State :=
  let s := (s.rewrite i .oooTimeout now).count fun c => { c with oooReplay := c.oooReplay + 1 }
  if (s.tokAt i).oooMissing = true then
    s.modTok i fun t => { t.arm now (s.params.cfg.oooQuick t.cls) with oooMissing := false }
  else s.modTok i fun t => { t.arm now (s.stageTmo i) with oooReplay := false }

/-- `clear_dealloc_on_timeout(i)` (R377), on the token. -/
def Token.clearDealloc (t : Token) (c : Cfg) : Token :=
  if c.rdbufTracking = true ∧ c.noRetryTmoDealloc = true then { t with dealloc := none } else t

/-- `real_timeout(i)` (R376). -/
def State.realTimeout (s : State) (i : Nat) : State :=
  let s := if (s.tokAt i).quiet = true then s else s.emit (.log .warn i .timeout none)
  ((s.count fun c => { c with timeout := c.timeout + 1 }).modTok i fun t =>
    { (t.clearDealloc s.params.cfg) with timeouts := t.timeouts + 1 }).setResult i .timeout .timeout

/-- `timeout_handle(i, now)` (R371). -/
def State.timeoutHandle (s : State) (i now : Nat) : State :=
  if s.starved i = true then s.count fun c => { c with falseTimeout := c.falseTimeout + 1 }
  else if s.rdbufRecoverApplies i = true then s.recover i now
  else if ((s.tokAt i).oooMissing = true ∨ (s.tokAt i).oooReplay = true) ∧ s.run ≠ .dead then s.oooTimeout i now
  else s.realTimeout i

/-- `timeout_check(i, now)` (R370). -/
def State.timeoutCheck (s : State) (i now : Nat) : State :=
  if (s.tokAt i).elapsed now = true then s.timeoutHandle i now else s

/-! ### Out of order -/

/-- The active tokens with a sequence number, front to back (R385). -/
def State.seqMatches (s : State) (m : BitVec 32) : List Nat :=
  s.active.filter fun j => (s.tokAt j).hasSeq && decide ((s.tokAt j).seq = m)

/-- `search(m)` (R385): the first match, and a second one when the first has a buddy. -/
def State.seqSearch (s : State) (m : BitVec 32) : List Nat :=
  match s.seqMatches m with
  | [] => []
  | j :: rest => if (s.tokAt j).buddy = none then [j] else j :: rest.take 1

/-- The tokens of a list armed for a short time and marked missing (R382). -/
def State.armMissing (s : State) (now qt : Nat) : List Nat → State
  | [] => s
  | j :: js => State.armMissing (s.modTok j fun t => { t.arm now qt with oooMissing := true }) now qt js

/-- The tokens of a list replayed at once (R383, R387). -/
def State.replayNow (s : State) (now : Nat) : List Nat → State
  | [] => s
  | j :: js =>
    if s.run = .dead then s
    else State.replayNow ((s.rewrite j .oooImmediate now).count fun c => { c with oooReplay := c.oooReplay + 1 }) now js

/-- `ooo_handle(i, v, now)` (R380-R384). -/
def State.oooHandle (s : State) (i : Nat) (v : Word) (now : Nat) : State :=
  match s.params.cfg.oooPolicy with
  | .off => s.emit (.log .info i .ooo (some v))
  | .quick =>
    let qt := s.params.cfg.oooQuick (s.tokAt i).cls
    if qt ≠ 0 then s.armMissing now qt (s.seqSearch (s.params.layout.extMissSeq v)) else s.replayNow now (s.seqSearch (s.params.layout.extMissSeq v))
  | .delayed => s.modTok i fun t => { t.arm now (s.stageTmo i) with oooReplay := true }

end Sys2Proof.Machine
end

