-- ==== Sys2Proof/Machine/StatusDecoder.lean ====
section
/-! DEFINITION. The status decoder (spec/42_status_decoder.md): POLL and the decode of every status byte. -/

namespace Sys2Proof.Machine

open Sys2Proof

/-! ### Extended status and buffers -/

/-- The value `ext(i)` returns (R283): the token's cached extended status, or the device's. -/
def State.extValue (s : State) (i : Nat) : Word := (s.tokAt i).extCache.getD (s.readExt i)

/-- The state after `ext(i)`: the value is cached (R283). -/
def State.extFetched (s : State) (i : Nat) : State :=
  let v := s.extValue i
  s.modTok i fun t => { t with extCache := some v }

/-- The write buffers a token holds. -/
def Token.wbufIds (t : Token) : List Byte := t.wbuf0.toList ++ t.wbuf1.toList ++ t.wbuf2.toList

/-- `free_wbufs(i)` (R291). -/
def State.freeWbufs (s : State) (i : Nat) : State :=
  let ids := (s.tokAt i).wbufIds
  if ids = [] then s
  else (s.emit (.wrBufFree i ids)).modTok i fun t => { t with wbuf0 := none, wbuf1 := none, wbuf2 := none }

/-- `emit Log(level, i, what, ext(i) if b.EXT = 1 else none)` (R320, R326). -/
def State.logExt (s : State) (i : Nat) (b : Byte) (level : LogLevel) (what : LogWhat) : State :=
  if s.params.layout.stExtend b = true then (s.extFetched i).emit (.log level i what (some (s.extValue i)))
  else s.emit (.log level i what none)

/-! ### Success and progress -/

/-- The read path's record of the completion buffer, the other paths' freeing of write buffers (R290). -/
def State.successBuffers (s : State) (i : Nat) (b : Byte) : State :=
  if (s.tokAt i).cls = .read then
    if s.params.cfg.rdbufFromStatus = true then
      (s.modTok i fun t => { t with rdbuf := some (s.params.layout.stCode b) }).emit (.rdBufDone i (s.params.layout.stCode b))
    else s
  else s.freeWbufs i

/-- `warn_ext(i)` (R292). -/
def State.warnExt (s : State) (i : Nat) : State :=
  ((s.extFetched i).count fun c => { c with warning := c.warning + 1 }).emit (.log .warn i .devWarning (some (s.extValue i)))

/-- `success(i, b)` (R290): an OK result leaves `why` alone (60_exceptions.md R402). -/
def State.success (s : State) (i : Nat) (b : Byte) : State :=
  let s := s.successBuffers i b
  let s := if s.params.layout.stExtend b = true then s.warnExt i else s
  s.modTok i fun t => { t with result := .ok }

/-- `early_commit(i)` (R302). -/
def State.earlyCommit (s : State) (i : Nat) : State :=
  let t := s.tokAt i
  if s.params.cfg.commitStage.reached t.stage = true ∧ t.earlyCommitted = false then
    (s.modTok i fun t => { t with earlyCommitted := true, hostLive := false }).emit (.earlyCommit i t.reqTag)
  else s

/-- The stage a progress code names (R300, R301). -/
def progressStage : StatusCode → Stage
  | .queued => .queued
  | .received => .received
  | _ => .waitDev

/-- `progress(i, b, now)` (R300-R303). -/
def State.progress (s : State) (i : Nat) (c : StatusCode) (now : Nat) : State :=
  if (s.tokAt i).cls = .control ∧ c = .sequenced then s
  else
    let g := progressStage c
    let s := s.modTok i fun t => { t.arm now (s.params.cfg.tmo t.cls g) with stage := g }
    if (s.tokAt i).cls = .write then (s.freeWbufs i).earlyCommit i else s

/-! ### Failures -/

/-- COLLISION (R310). -/
def State.decCollision (s : State) (i : Nat) : State :=
  (s.count fun c => { c with collision := c.collision + 1 }).setResult i .retry .collision

/-- FIELD_ERROR (R311). -/
def State.decFieldError (s : State) (i : Nat) : State :=
  ((s.count fun c => { c with field := c.field + 1 }).modTok i fun t =>
    if t.cls = .write ∧ t.earlyCommitted = true then { t with xferFromHost := false } else t).setResult i .retry .field

/-- `unknown_hw(i)` (R322). -/
def State.unknownHw (s : State) (i : Nat) : State :=
  let s := s.count fun c => { c with unknownHw := c.unknownHw + 1 }
  if s.params.cfg.haltOnWriteError = true ∧ (s.tokAt i).cls = .write then s.abortHard i .unknownHw
  else s.setResult i .abort .unknownHw

/-- The fault subtype FC_XSUM (R315). -/
def State.fcXsum (s : State) (i : Nat) : State :=
  let s := s.modCtr i fun k => { k with xsum := k.xsum + 1 }
  if s.canRetryXsum i = true then s.setResult i .retry .hwXsum else s.setResult i .abort .xsumBudget

/-- The fault subtype FC_WEP_TIMEOUT (R316). -/
def State.fcWep (s : State) (i : Nat) : State :=
  let s := s.modCtr i fun k => { k with wep := k.wep + 1 }
  if s.canRetryWep i = true then s.setResult i .retry .hwWep else s.setResult i .abort .wepBudget

/-- A low byte that is no named fault subtype (R318). -/
def State.unknownFc (s : State) (i : Nat) : State := { s.setResult i .abort .unknownFc with unspecSeen := true }

/-- ILLEGAL_CMD (R314-R319). -/
def State.decIllegal (s : State) (i : Nat) (b : Byte) : State :=
  let s := s.count fun c => { c with illegal := c.illegal + 1 }
  if s.params.layout.stExtend b = false then s.setResult i .abort .illegalNoExt
  else
    let fc := s.params.layout.faultOf (extFault (s.extValue i))
    let s := s.extFetched i
    match fc with
    | some .fatal => s.abortHard i .fatalFw
    | some .xsum => s.fcXsum i
    | some .wepTimeout => s.fcWep i
    | some .ecc => s.setResult i .retry .hwEcc
    | some .cmdOffset => s.setResult i .retry .hwCmdOffset
    | some .unknownCmd => s.unknownHw i
    | none => s.unknownFc i

/-- EXE_ERROR (R320). -/
def State.decExeError (s : State) (i : Nat) (b : Byte) : State :=
  let s := s.count fun c => { c with exe := c.exe + 1 }
  if (s.tokAt i).devdir = true then (s.logExt i b .err .exeError).abortHard i .exeDevdir else s.setResult i .abort .exe

/-- ECC_ERROR (R321). -/
def State.decEccError (s : State) (i : Nat) : State :=
  let s := (s.count fun c => { c with ecc := c.ecc + 1 }).modCtr i fun k => { k with ecc := k.ecc + 1 }
  if s.canRetryEcc i = true then s.setResult i .retry .ecc else s.setResult i .abort .eccBudget

/-- XSUM_ERROR (R324). -/
def State.decXsumError (s : State) (i : Nat) : State :=
  let s := (s.count fun c => { c with xsum := c.xsum + 1 }).modCtr i fun k => { k with xsum := k.xsum + 1 }
  if s.canRetryXsum i = true then s.setResult i .retry .xsum else s.unknownHw i

/-- DEV_WARNING (R326). -/
def State.decDevWarning (s : State) (i : Nat) (b : Byte) (now : Nat) : State :=
  let s := (s.count fun c => { c with warning := c.warning + 1 }).logExt i b .warn .devWarning
  s.modTok i fun t => { t.arm now (s.params.cfg.tmo t.cls .waitDev) with stage := .waitDev }

/-- DUP_ERROR (R330). -/
def State.decDupError (s : State) (i : Nat) : State :=
  let s := s.count fun c => { c with oooDup := c.oooDup + 1 }
  if (s.tokAt i).buddy ≠ none then
    let s := if (s.tokAt i).cls ≠ .read then s.freeWbufs i else s
    s.modTok i fun t => { t with result := .ok }
  else if (s.tokAt i).hostLive = true then s.setResult i .retry .dupRetry
  else s.setResult i .abort .dupAbort

/-- OOO (R332): a pure no-op on the control path (90_conflicts.md C3). -/
def State.decOoo (s : State) (i : Nat) (b : Byte) (now : Nat) : State :=
  if (s.tokAt i).cls = .control then s
  else
    let s := (s.count fun c => { c with ooo := c.ooo + 1 }).modTok i fun t => { t with seenInHw := true }
    if s.params.layout.stExtend b = true then (s.extFetched i).oooHandle i (s.extValue i) now else s

/-- A reserved status code (R340). -/
def State.decReserved (s : State) (i : Nat) : State := { s.setResult i .abort .unspecCode with unspecSeen := true }

/-! ### POLL -/

/-- `decode(i, b, now)` (R285): a fresh byte. -/
def State.decodeStatus (s : State) (i : Nat) (b : Byte) (now : Nat) : State :=
  let s := s.modTok i fun t => { t with oooMissing := false }
  if s.params.layout.stSuccess b = true then s.success i b
  else
    match s.params.layout.statusOf (s.params.layout.stCode b) with
    | some .queued => s.progress i .queued now
    | some .received => s.progress i .received now
    | some .pending => s.progress i .pending now
    | some .sequenced => s.progress i .sequenced now
    | some .collision => s.decCollision i
    | some .fieldError => s.decFieldError i
    | some .illegalCmd => s.decIllegal i b
    | some .exeError => s.decExeError i b
    | some .eccError => s.decEccError i
    | some .unknownHw => s.unknownHw i
    | some .xsumError => s.decXsumError i
    | some .devWarning => s.decDevWarning i b now
    | some .dupError => s.decDupError i
    | some .ooo => s.decOoo i b now
    | none => s.decReserved i

/-- Recording a changed status byte, stale or fresh (R282). -/
def State.observe (s : State) (i : Nat) (b : Byte) (now : Nat) : State :=
  ((s.modTok i fun t => { t with lastStatus := some b, extCache := none, touchedTime := some now }).count
    fun c => { c with statusChanged := c.statusChanged + 1 }).emit (.statusChanged i b)

/-- The status byte of the cache, when it has changed since the last observation (R282). -/
def State.changedStatus (s : State) (i : Nat) : Option Byte :=
  match (s.slotAt i).cache with
  | none => none
  | some b => if (s.tokAt i).lastStatus = some b then none else some b

/-- Steps 1-5 of POLL (R280-R285): a stale byte is recorded and not decoded (R284). -/
def State.pollStatus (s : State) (i now : Nat) : State :=
  match s.changedStatus i with
  | none => s
  | some b =>
    let s := s.observe i b now
    if s.params.layout.stPolarity b = (s.tokAt i).odd then s.decodeStatus i b now else s

/-- A step of POLL that runs only while the result is NOT_COMPLETE (R280). -/
def State.whilePending (s : State) (i : Nat) (f : State → State) : State :=
  if (s.tokAt i).result = .notComplete then f s else s

/-- `finish(i)` (R281). -/
def State.finish (s : State) (i : Nat) : State :=
  let r := (s.tokAt i).result
  if r = .notComplete then s.respond false .notComplete
  else
    let s := s.modTok i fun t => { t with st := .done }
    ({ s with active := s.active.filter fun j => j != i }).respond true r

/-- The whole poll of an ACTIVE token (R280). -/
def State.pollActive (s : State) (i now : Nat) : State :=
  let s := s.pollStatus i now
  let s := s.whilePending i fun s => s.lostCheck i now
  let s := s.whilePending i fun s => s.timeoutCheck i now
  s.finish i

/-- POLL (R280, R288). -/
def State.opPoll (s : State) (i now : Nat) : Except OpError State :=
  if s.numSlots ≤ i then .error .badSlot
  else if now < s.lastNow then .error .timeRegression
  else if (s.tokAt i).st = .done then .ok ((s.atTime now).respond true (s.tokAt i).result)
  else if (s.tokAt i).st ≠ .active then .error .badState
  else .ok ((s.atTime now).pollActive i now)

/-- POLL (R280). -/
def execPoll (i now : Nat) (s : State) : Host.Outcome State Fault Refusal := s.answer (s.begin.opPoll i now)

end Sys2Proof.Machine
end

