-- ==== Sys2Proof/Machine/Dispatch.lean ====
section
/-! DEFINITION. One arm per instruction, each one call of its meaning. -/

namespace Sys2Proof.Machine

open Sys2Proof

def exec (i : Instr) (s : State) : Host.Outcome State Fault Refusal :=
  match i with
  | .null h st => Sys2Proof.Machine.execNull h st s
  | .getReg h reg st => Sys2Proof.Machine.execGetReg h reg st s
  | .putReg h value reg st => Sys2Proof.Machine.execPutReg h value reg st s
  | .cmdReset h st => Sys2Proof.Machine.execCmdReset h st s
  | .seqRead h src dst st => Sys2Proof.Machine.execSeqRead h src dst st s
  | .pageRead h lba bcnt coreBuf st => Sys2Proof.Machine.execPageRead h lba bcnt coreBuf st s
  | .pageWrite h wbuf0 bcnt wbuf1 wbuf2 lba st => Sys2Proof.Machine.execPageWrite h wbuf0 bcnt wbuf1 wbuf2 lba st s
  | .extRead h lba bcnt coreBuf st => Sys2Proof.Machine.execExtRead h lba bcnt coreBuf st s
  | .extWrite h wbuf0 bcnt wbuf1 wbuf2 lba st => Sys2Proof.Machine.execExtWrite h wbuf0 bcnt wbuf1 wbuf2 lba st s
  | .trim h lba count st => Sys2Proof.Machine.execTrim h lba count st s
  | .devStats h src dst st => Sys2Proof.Machine.execDevStats h src dst st s
  | .devPassthru h wbuf0 coreBuf cdb st => Sys2Proof.Machine.execDevPassthru h wbuf0 coreBuf cdb st s
  | .copy h src dst st => Sys2Proof.Machine.execCopy h src dst st s
  | .fwNull h src dst st => Sys2Proof.Machine.execFwNull h src dst st s
  | .shutdown h st => Sys2Proof.Machine.execShutdown h st s
  | .startup h src dst st => Sys2Proof.Machine.execStartup h src dst st s
  | .traceCtrl h src dst st => Sys2Proof.Machine.execTraceCtrl h src dst st s
  | .test h src dst st => Sys2Proof.Machine.execTest h src dst st s
  | .seqAdvance h seqCount st => Sys2Proof.Machine.execSeqAdvance h seqCount st s
  | .debugLog h src dst st => Sys2Proof.Machine.execDebugLog h src dst st s
  | .extError h src dst st => Sys2Proof.Machine.execExtError h src dst st s
  | .fwDownload h src dst st => Sys2Proof.Machine.execFwDownload h src dst st s
  | .getParams h param coreBuf st => Sys2Proof.Machine.execGetParams h param coreBuf st s
  | .setParams h wbuf0 param st => Sys2Proof.Machine.execSetParams h wbuf0 param st s
  | .crashLog h src dst st => Sys2Proof.Machine.execCrashLog h src dst st s
  | .testRead h src dst st => Sys2Proof.Machine.execTestRead h src dst st s
  | .testWrite h src dst st => Sys2Proof.Machine.execTestWrite h src dst st s
  | .sataReinit h st => Sys2Proof.Machine.execSataReinit h st s
  | .cancel h target st => Sys2Proof.Machine.execCancel h target st s
  | .faultInject h src dst st => Sys2Proof.Machine.execFaultInject h src dst st s
  | .diagnostic h src dst st => Sys2Proof.Machine.execDiagnostic h src dst st s
  | .opReset => Sys2Proof.Machine.execOpReset s
  | .encBuild req => Sys2Proof.Machine.execEncBuild req s
  | .encFinalize w odd slot seq dealloc xsum => Sys2Proof.Machine.execEncFinalize w odd slot seq dealloc xsum s
  | .alloc kind carry => Sys2Proof.Machine.execAlloc kind carry s
  | .allocId slot kind => Sys2Proof.Machine.execAllocId slot kind s
  | .build slot req => Sys2Proof.Machine.execBuild slot req s
  | .issue slot dealloc xsum now => Sys2Proof.Machine.execIssue slot dealloc xsum now s
  | .statusRefresh t now => Sys2Proof.Machine.execStatusRefresh t now s
  | .poll slot now => Sys2Proof.Machine.execPoll slot now s
  | .reissue slot req now => Sys2Proof.Machine.execReissue slot req now s
  | .detach slot => Sys2Proof.Machine.execDetach slot s
  | .release slot => Sys2Proof.Machine.execRelease slot s

end Sys2Proof.Machine
end

