-- ==== Sys2Proof/Machine/Step.lean ====
section
/-! DEFINITION. One step: what next arrives from outside.  The block has no program counter (10_state.md
R31): its program is the sequence of requests on its port, each one step (00_scope.md R5); a write of the
device is a step of its own (20_memory.md R90). -/

namespace Sys2Proof.Machine

open Sys2Proof

/-- The step of a request: the instruction it decodes to runs, or the request is rejected. -/
def stepRequest (s : State) (q : Request) : Host.Outcome State Fault Refusal :=
  match decode s.params.layout q with
  | .ok i => exec i s
  | .error e => s.rejectRequest e

/-- One step.  A configuration the spec refuses runs nothing (20_memory.md R84); with nothing to arrive the
block waits and nothing changes (60_exceptions.md R429). -/
def step (s : State) : Host.Outcome State Fault Refusal :=
  if s.configOk = false then .refused .badConfiguration
  else
    match s.inputs with
    | [] => .next s
    | .request q :: rest => stepRequest { s with inputs := rest } q
    | .device w :: rest => State.deviceWrite { s with inputs := rest } w

/-- The table word put where `step` takes its next request from. -/
def State.withFetchWord (s : State) (nbits w : Nat) : State :=
  { s with inputs := .request (tableRequest nbits w) :: s.inputs }

end Sys2Proof.Machine
end

