-- ==== Sys2Proof/Safety.lean ====
section
/-! DEFINITION. What claims are stated in: the responses an operation gives, what a claim may suppose of a
poll, the frame of an operation, and the invariants of the block (10_state.md R36, R39; 30_encoding.md R118,
R132; 60_exceptions.md R404). -/

namespace Sys2Proof

/-! ### The configuration as the rules write it

Written out here from the record `cfg`, beside the functions the machine uses, so that a claim says of the machine's that
they pick the entries the rules name. -/

/-- The three entries of `cfg.tmo` of a class (10_state.md R61). -/
def Cfg.timeouts (c : Cfg) : Class → StageTable
  | .read => c.tmoRead
  | .write => c.tmoWrite
  | .control => c.tmoControl

/-- The entry of a stage (42_status_decoder.md R300); before any stage is reported, that of QUEUED
(43_timeout_ooo.md R361). -/
def StageTable.entry (T : StageTable) : Stage → Nat
  | .issued => T.queued
  | .queued => T.queued
  | .received => T.received
  | .waitDev => T.waitDev

/-- The entry of `cfg.ooo_quick` of a class (10_state.md R60, 43_timeout_ooo.md R382). -/
def Cfg.quickTimeout (c : Cfg) : Class → Nat
  | .read => c.oooQuickRead
  | .write => c.oooQuickWrite
  | .control => c.oooQuickControl

end Sys2Proof

namespace Sys2Proof.Machine

open Sys2Proof

/-! ### Responses -/

/-- The response of an operation error (60_exceptions.md R403). -/
def Response.error (e : OpError) : Response := { Response.empty with err := some e }

/-- The response of an encoder operation: a Command Word (30_encoding.md R160). -/
def Response.ofWord (W : CmdWord) : Response := { Response.empty with word := some W }

/-- The response of an allocation (41_token_pool.md R240). -/
def Response.ofSlot (i : Nat) : Response := { Response.empty with slot := some i }

/-- The response that reports a token: `done`, `result` and the events (42_status_decoder.md R281). -/
def Response.ofToken (d : Bool) (r : Result) (evs : List Event) : Response :=
  { Response.empty with done := some d, result := some r, events := evs }

/-- The state with another response on the port and nothing else changed. -/
def State.answered (s : State) (r : Response) : State := { s with resp := r }

/-- The state with events put before those of its response. -/
def State.withEvents (s : State) (evs : List Event) : State :=
  { s with resp := { s.resp with events := evs ++ s.resp.events } }

/-! ### Encodings as the rules write them -/

/-- The header word of 40_cmdgen.md R172, the rule's own expression. -/
def hdrWord (opc : Byte) (dir : BitVec 2) (hwOnly : BitVec 1) (dup : Bool) (dsz msize : BitVec 2) : Word :=
  opc.setWidth 64 ||| dir.setWidth 64 <<< 48 ||| hwOnly.setWidth 64 <<< 50 ||| (if dup then (1 : Word) else 0) <<< 51
    ||| dsz.setWidth 64 <<< 52 ||| msize.setWidth 64 <<< 54

/-- The unfinalized Command Word of an opcode, a header, `SRC`, `DST` and the three sub-fields in the layout `L`:
each value at its field's place, every other bit 0 (30_encoding.md R111-R114). -/
def headWord (L : Layout) (o : Opcode) (h : CmdHdr) (src dst aux0 aux1 aux2 : BitVec 56) : CmdWord :=
  placeFields
    [(L.opc, (L.opcode o).setWidth 64), (L.dir, h.dir.setWidth 64), (L.hwOnly, h.hwOnly.setWidth 64),
     (L.dupChk, h.dupChk.setWidth 64), (L.dsize, h.dsize.setWidth 64), (L.msize, h.msize.setWidth 64),
     (L.src, src.setWidth 64), (L.dst, dst.setWidth 64), (L.aux0, aux0.setWidth 64), (L.aux1, aux1.setWidth 64),
     (L.aux2, aux2.setWidth 64)]

/-- The fifteen opcodes `K_RAW` builds (40_cmdgen.md R209-R224). -/
def rawOpcodes : List Opcode :=
  [.seqRead, .devStats, .copy, .fwNull, .startup, .traceCtrl, .test, .debugLog, .extError, .fwDownload, .crashLog,
   .testRead, .testWrite, .faultInject, .diagnostic]

/-- ENC_BUILD of `req` answers the word with the opcode `o`, whose reference code is `opc`, and changes nothing: the
header's fields, `SRC`, `DST` and sub-fields at the places of the layout; in the reference layout that is the word
40_cmdgen.md writes out. -/
def State.Builds (s : State) (req : BuildReq) (o : Opcode) (opc : Byte) (dir dsz : BitVec 2) (dup : Bool)
    (src dst aux0 aux1 aux2 : BitVec 56) : Prop :=
  ∃ W, exec (.encBuild req) s = .next (s.answered (Response.ofWord W))
    ∧ W = headWord s.params.layout o ⟨dir, req.hwOnly, if dup then 1 else 0, dsz, req.msize⟩ src dst aux0 aux1 aux2
    ∧ (s.params.layout = Layout.reference → W = ⟨hdrWord opc dir req.hwOnly dup dsz req.msize, src.setWidth 64,
        dst.setWidth 64, aux0.setWidth 64, aux1.setWidth 64, aux2.setWidth 64, 0, 0⟩)

/-- A header with `DUPCHK` as `cfg.dupcheck` sets it in every kind but the passthrough (40_cmdgen.md R172). -/
def configuredHdr (c : Cfg) (h : CmdHdr) : CmdHdr := { h with dupChk := if c.dupcheck then 1 else 0 }

/-- The size code and the length of a valid transfer (30_encoding.md R120). -/
def lenOf (z : BitVec 2) : Nat := 512 <<< z.toNat

/-- One of the two forms of an ATA command that a passthrough takes (40_cmdgen.md R201). -/
abbrev PassthroughForm (cdb : List Byte) : Prop :=
  (cdb.head? = some 0x85 ∧ cdb.length = 16) ∨ (cdb.head? = some 0xA1 ∧ cdb.length = 12)

/-- Seven bytes, the first lowest (40_cmdgen.md R204). -/
def sevenBytes (b : Nat → Byte) : BitVec 56 := b 6 ++ b 5 ++ b 4 ++ b 3 ++ b 2 ++ b 1 ++ b 0

/-- No length is given (40_cmdgen.md section 3). -/
def NoLength (req : BuildReq) : Prop := req.h2dLen = 0 ∧ req.d2hLen = 0

/-- Every bit of word `j` that is 1 is a bit of one of the fields. -/
abbrev bitsIn (fs : List Field) (j : Nat) (w : Word) : Prop := ∀ k, k < 64 → w.getLsbD k = true → inFields fs j k = true

/-- Every bit that no field of the layout holds is 0 (30_encoding.md R112-R116, R118; 93_implementation_defined.md
I1; words 3-5 of a duplicated command are copies), and no field holds a code the encoder never builds: the opcode is in the table (R132, R133) or 0, which the
word of a reset token has, `DIR` is not 3 (R119), `MSIZE` is not 3 (R121). -/
abbrev CleanWord (L : Layout) (W : CmdWord) : Prop :=
  (∀ j, j < 8 → (j < 3 ∨ 6 ≤ j ∨ W.getField L.dupChk = 0) → bitsIn L.allFields j (W.get j))
    ∧ ((L.opcodeIn W).isSome = true ∨ W.getField L.opc = 0) ∧ W.getField L.dir ≠ 3 ∧ W.getField L.msize ≠ 3

/-! ### Slots -/

/-- The addresses of command slot `i` (20_memory.md R81). -/
def State.inCmdSlot (s : State) (i a : Nat) : Prop :=
  s.params.cmdBase + 64 * i ≤ a ∧ a < s.params.cmdBase + 64 * i + 64

/-- The operation is accepted on slot `i` at `now` as far as R161 goes. -/
abbrev State.Accepts (s : State) (i now : Nat) : Prop := i < s.numSlots ∧ s.lastNow ≤ now

/-- Slot `i` holds an active token (10_state.md R39 (c)). -/
abbrev State.Polling (s : State) (i : Nat) : Prop :=
  (s.tokAt i).st = .active ∧ (s.tokAt i).result = .notComplete

/-- The cache shows a status byte the token has not observed (42_status_decoder.md R282). -/
abbrev State.Changed (s : State) (i : Nat) (b : Byte) : Prop :=
  (s.slotAt i).cache = some b ∧ (s.tokAt i).lastStatus ≠ some b

/-- A POLL of slot `i` at `now` decodes the byte `b`: the token is active, the byte is a change, and its
polarity is the token's (R280, R282, R284). -/
abbrev State.Fresh (s : State) (i now : Nat) (b : Byte) : Prop :=
  s.Accepts i now ∧ s.Polling i ∧ s.Changed i b ∧ s.params.layout.stPolarity b = (s.tokAt i).odd

/-- A fresh failure byte that carries the code `c` (30_encoding.md R140, R142). -/
abbrev State.FreshCode (s : State) (i now : Nat) (b : Byte) (c : StatusCode) : Prop :=
  s.Fresh i now b ∧ s.params.layout.stSuccess b = false
    ∧ s.params.layout.statusOf (s.params.layout.stCode b) = some c

/-- The token after the byte `b` was observed and found fresh (R282, R285). -/
def Token.seen (t : Token) (b : Byte) (now : Nat) : Token :=
  { t with lastStatus := some b, extCache := none, touchedTime := some now, oooMissing := false }

/-- The token with its extended status read: `v` when the byte's EXT bit is set (R283). -/
def Token.withExt (t : Token) (L : Layout) (b : Byte) (v : Word) : Token :=
  if L.stExtend b = true then { t with extCache := some v } else t

/-- The statistics after a changed byte was observed (R282). -/
def Stats.changed (c : Stats) : Stats := { c with statusChanged := c.statusChanged + 1 }

/-- The state a POLL of slot `i` leaves when the result is terminal: token and retry counters as given, the
token DONE and off the active list (R281); everything else as before. -/
def State.concluded (s : State) (i now : Nat) (tok : Token) (ctr : RetryCtr) (stats : Stats) (evs : List Event) : State :=
  { s with
    slots := s.slots.modify i (fun sl => { sl with tok := { tok with st := .done }, ctr := ctr }),
    lastNow := now, active := s.active.filter (fun j => j != i), stats := stats,
    resp := Response.ofToken true tok.result evs }

/-- The state a POLL of slot `i` leaves when the command is still pending: the token as given; everything
else as before (R281). -/
def State.pending (s : State) (i now : Nat) (tok : Token) (stats : Stats) (evs : List Event) : State :=
  { s with
    slots := s.slots.modify i (fun sl => { sl with tok := tok }), lastNow := now, stats := stats,
    resp := Response.ofToken false .notComplete evs }

/-- A POLL of slot `i` in `s` emits `evs` and goes on as a POLL of slot `i` in `u` does: where `u` is what the steps
up to the decode leave, its POLL finds the byte observed and runs the steps after the decode, the lost-command check
and the timeout check, which are stated by themselves (R280, R284). -/
def State.PollGoesOn (s u : State) (i now : Nat) (evs : List Event) : Prop :=
  ∃ t, exec (.poll i now) u = .next t ∧ exec (.poll i now) s = .next (t.withEvents evs)

/-- A POLL of slot `i` leaves the token as given, still pending, and goes on to the steps after the decode; with no
deadline passed they change nothing and the POLL answers NOT_COMPLETE (R280, R281, R287). -/
def State.Waits (s : State) (i now : Nat) (tok : Token) (stats : Stats) (evs : List Event) : Prop :=
  s.PollGoesOn { s with slots := s.slots.modify i (fun sl => { sl with tok := tok }), stats := stats } i now evs
    ∧ (now < tok.armedTime + tok.tmoDur → exec (.poll i now) s = .next (s.pending i now tok stats evs))

/-- A POLL of slot `i` finds no new status byte (42_status_decoder.md R282). -/
abbrev State.Unchanged (s : State) (i : Nat) : Prop :=
  (s.slotAt i).cache = none ∨ (s.slotAt i).cache = (s.tokAt i).lastStatus

/-- No lost-command re-write is due: the check is off, a status was seen since the last issue, the threshold is not yet
passed, the budget is spent, or the device is dead (43_timeout_ooo.md R362, R387). -/
abbrev State.NotLost (s : State) (i now : Nat) : Prop :=
  s.params.cfg.lostThresh = 0 ∨ (∃ u ∈ (s.tokAt i).touchedTime, (s.tokAt i).issueTime ≤ u)
    ∨ now ≤ (s.tokAt i).issueTime + s.params.cfg.lostThresh ∨ s.params.cfg.lostMax ≤ (s.tokAt i).lostRefreshes ∨ s.run = .dead

/-- The events of freeing the write buffers of a token (42_status_decoder.md R291). -/
def Token.freeEvents (t : Token) (i : Nat) : List Event :=
  let ids := t.wbuf0.toList ++ t.wbuf1.toList ++ t.wbuf2.toList
  if ids = [] then [] else [.wrBufFree i ids]

/-- The token with no write buffers left (R291). -/
def Token.freed (t : Token) : Token := { t with wbuf0 := none, wbuf1 := none, wbuf2 := none }

/-- The extended status a log record carries: `v` when the byte's EXT bit is set (R320, R326). -/
def logged (L : Layout) (b : Byte) (v : Word) : Option Word := if L.stExtend b = true then some v else none

/-- What R253 says of the sequence number of the next launch in slot `i`: whether the command gets one, which,
and whether it is taken from `seq_next`. -/
def State.SeqRule (s : State) (i : Nat) (has : Bool) (q : BitVec 32) (fresh : Bool) : Prop :=
  if (s.tokAt i).devdir = false then has = false ∧ q = 0 ∧ fresh = false
  else
    has = true ∧
      ((fresh = false ∧ ∃ b, (s.tokAt i).buddy = some b ∧ (s.tokAt b).st = .active ∧ (s.tokAt b).hasSeq = true ∧ q = (s.tokAt b).seq)
        ∨ (fresh = true ∧ q = s.seqNext
          ∧ ¬ ∃ b, (s.tokAt i).buddy = some b ∧ (s.tokAt b).st = .active ∧ (s.tokAt b).hasSeq = true))

/-- The command filter, for either form a parameter record gives it, lets the word pass (00_scope.md R10,
41_token_pool.md R256). -/
def State.filterPasses (s : State) (W : CmdWord) : Bool :=
  match s.params.filter with
  | .unknown => Config.cmdFilter s.run W
  | .denying l => decide ((W.getField s.params.layout.opc).setWidth 8 ∉ l)

/-- The token a launch leaves (41_token_pool.md R251, R255), from the token that holds the operands. -/
def Token.inFlight (t : Token) (c : Cfg) (odd : BitVec 1) (has : Bool) (q : BitVec 32) (W : CmdWord) (cache : Option Byte)
    (now : Nat) : Token :=
  { t with
    odd := odd, hasSeq := has, seq := q, wire := W, lastStatus := cache, extCache := none, issueTime := now, stage := .issued,
    armedTime := now, tmoDur := (c.timeouts t.cls).queued, lostRefreshes := 0, rdbufRecover := 0, oooMissing := false,
    oooReplay := false, seenInHw := false, st := .active, result := .notComplete, why := none }

/-- The state after the command of slot `i` is launched with the token `tok` and the word `W` (R251): polarity,
sequence number, active list, the write of the command slot, and nothing else. -/
def State.inFlight (s : State) (i now : Nat) (tok : Token) (has : Bool) (q : BitVec 32) (fresh : Bool) (W : CmdWord) : State :=
  let odd := (s.slotAt i).odd ^^^ 1
  { s with
    slots := s.slots.modify i fun sl => { sl with odd := odd, tok := tok.inFlight s.params.cfg odd has q W sl.cache now },
    seqNext := if fresh then s.seqNext + 1 else s.seqNext, active := s.active ++ [i], lastNow := now,
    mem := s.mem.writeBytes (s.params.cmdBase + 64 * i) W.bytes, submitted := s.submitted ++ [(i, W)],
    resp := Response.ofToken false .notComplete [] }

/-- The bytes of command slot `i` are those of `W`, and every address outside it reads in `t` as in `s`. -/
def State.WroteSlot (s t : State) (i : Nat) (W : CmdWord) : Prop :=
  (∀ k, k < 64 → t.mem.read (s.params.cmdBase + 64 * i + k) = W.bytes[k]?) ∧ ∀ a, ¬ s.inCmdSlot i a → t.mem.read a = s.mem.read a

/-! ### Invariants -/

/-- The result a token may have in each lifecycle state (10_state.md R36, R39 (c)). -/
def resultFits (st : TokState) (r : Result) : Bool :=
  match st with
  | .free | .allocated | .built => decide (r = .none)
  | .active => decide (r = .notComplete)
  | .done => decide (r ≠ .none) && decide (r ≠ .notComplete)

/-- What R36, R39 (c)-(e) and R41 ask of one slot. -/
abbrev SlotInv (sl : Slot) : Prop :=
  resultFits sl.tok.st sl.tok.result = true ∧ (sl.tok.st = .active → sl.tok.odd = sl.odd)
    ∧ (sl.tok.st = .free → sl.tok = Token.reset ∧ sl.ctr = RetryCtr.zero)

/-- The invariants of the block (10_state.md R39): `active` lists exactly the slots whose token is ACTIVE,
each once (b), and every slot keeps (c), (d), (e). -/
abbrev State.BlockInv (s : State) : Prop :=
  s.active.Nodup ∧ (∀ i ∈ s.active, i < s.numSlots ∧ (s.tokAt i).st = .active)
    ∧ ∀ i, i < s.numSlots → SlotInv (s.slotAt i) ∧ ((s.tokAt i).st = .active → i ∈ s.active)

/-- No time a token holds is later than `t`. -/
abbrev Token.timesBy (tok : Token) (t : Nat) : Prop :=
  tok.issueTime ≤ t ∧ tok.armedTime ≤ t ∧ ∀ u ∈ tok.touchedTime, u ≤ t

/-- No recorded time is later than `last_now` (10_state.md R47, 60_exceptions.md R404). -/
abbrev State.TimeInv (s : State) : Prop :=
  (∀ i, i < s.numSlots → (s.tokAt i).timesBy s.lastNow)
    ∧ (∀ u ∈ s.refreshGeneral, u ≤ s.lastNow) ∧ ∀ u ∈ s.refreshReserved, u ≤ s.lastNow

/-- Every Command Word the block holds or has written is clean: reserved bits 0 (30_encoding.md R118), no
reserved opcode, direction or metadata code (R119, R121, R132). -/
abbrev State.CleanInv (s : State) : Prop :=
  (∀ i, i < s.numSlots → CleanWord s.params.layout (s.tokAt i).cmd ∧ CleanWord s.params.layout (s.tokAt i).wire)
    ∧ ∀ p ∈ s.submitted, CleanWord s.params.layout p.2

/-- A safe run: the machine's invariants, and memory in its canonical form. -/
abbrev State.Safe (s : State) : Prop := s.BlockInv ∧ s.TimeInv ∧ s.CleanInv ∧ s.mem.wf = true

end Sys2Proof.Machine
end

