-- ==== Sys2Proof/Certificates/Slice0/Obligations.lean ====
section
/-! DEFINITION. The statements about the block, by the files of the spec: encodings, the port, the state, the
encoder, the token pool, the status decoder, timeouts and out-of-order recovery.

Statements about encodings are for every layout that meets R117 (`admissible`) and in which no bit and no code has two
meanings (`unambiguous`).  The latter is the model's and no rule's: notes/assumptions/2.md. -/

open Sys2Proof Sys2Proof.Machine

/-! ### Encodings (30_encoding.md) -/

/-- Words written out from 30_encoding.md decode to what they stand for: the finalized PAGE_WRITE of
40_cmdgen.md R232, a finalized ATA passthrough (R204), a GET_REG, and three host operation requests
(notes/assumptions/9.md for the bytes of their arguments).
Rests on the spec's own choices D5, D7, D13, D14, D18. -/
def Obligations.WrittenWordsDecode : Prop :=
  decodeWord Layout.reference ⟨0x0139000000070306, 0x01000000FFFF0005, 0x0100000000002000, 0x0139000000070306, 0x01000000FFFF0005,
      0x4100000000002000, 0xFEDCBA9876543210, 0x0123456789ABCDEF⟩
    = .ok (.pageWrite ⟨1, 0, 1, 3, 0⟩ 5 0 0xFF 0xFF 0x2000 ⟨3, 7, 1, none, 0x0123456789ABCDEFFEDCBA9876543210⟩)
  ∧ decodeWord Layout.reference ⟨0x010200000000000B, 0x01000000000000FF, 0x0100000000000004, 0x01000000000E0885, 0x0140000000000000,
      0x01000000000000EC, 0, 0⟩
    = .ok (.devPassthru ⟨2, 0, 0, 0, 0⟩ 0xFF 4 0x00EC40000000000000000000000E0885 ⟨0, 0, 1, none, 0⟩)
  ∧ decodeWord Layout.reference ⟨0x0008000000000001, 0x40, 0, 0x0008000000000001, 0x40, 0, 0, 0⟩
    = .ok (.getReg ⟨0, 0, 1, 0, 0⟩ 0x40 ⟨0, 0, 0, none, 0⟩)
  ∧ decode Layout.reference (.hostOp [0x8, 3, 20]) = .ok (.poll 3 20)
  ∧ decode Layout.reference (.hostOp [0x7, 1, 0xAC, 0x02, 0, 0]) = .ok (.statusRefresh .reserved 300)
  ∧ decode Layout.reference (.hostOp [0xB, 2]) = .ok (.release 2)

/-- Decode and encode agree, in every admissible, unambiguous layout whose fields hold their operands (the last two the
model's premises, notes/assumptions/2.md): decoding what any instruction is encoded to gives the instruction back, for
every command, every host operation and every operand an encoding holds; and every Command Word the decoder accepts is the encoding of what it decodes to, so no bit of it is dropped.
Rests on the spec's own choices D5, D7, D12, D13, D14. -/
def Obligations.DecodeAndEncodeAgree : Prop :=
  (∀ (L : Layout) (i : Instr), L.admissible = true → L.unambiguous = true → L.holdsOperands = true → i.encodable = true →
    decode L (encode L i) = .ok i)
  ∧ ∀ (L : Layout) (W : CmdWord) (i : Instr), decodeWord L W = .ok i → encode L i = .command W.bytes

/-- The codes and places of the reference layout: code, class and device-directedness of every opcode
(30_encoding.md R131), the codes of the failures and of the fault subtypes (R142, R149), the fields of a status byte
and of an extended status (R140, R147), which in every layout stand where the layout has them.  The reference layout meets
R117, and the model's premises on a layout.  In every layout with one code for each name (`codesFit`,
the model's premise, notes/assumptions/2.md) a code names exactly the name it is the code of, so that a reserved or pseudo opcode names none (R132, R133).
Rests on the spec's own choices D6, D8, D9, D10, D11, D12, D13. -/
def Obligations.OpcodeTable : Prop :=
  let R := Layout.reference
  (Opcode.all.map fun o => (R.opcode o, o.cls, o.devdir)) =
    [(0x00, .control, false), (0x01, .control, false), (0x02, .control, false), (0x03, .control, false), (0x04, .read, true),
     (0x05, .read, true), (0x06, .write, true), (0x07, .read, true), (0x08, .write, true), (0x09, .control, true),
     (0x0A, .control, false), (0x0B, .control, true), (0x0C, .control, true), (0x0D, .control, false), (0x0E, .control, false),
     (0x0F, .control, false), (0x10, .control, false), (0x11, .control, false), (0x12, .control, true), (0x13, .control, false),
     (0x14, .control, false), (0x15, .control, false), (0x16, .control, false), (0x17, .control, false), (0x18, .control, false),
     (0x19, .read, false), (0x1A, .write, false), (0x1B, .control, false), (0x1C, .control, false), (0x1D, .control, false),
     (0x1E, .control, false)]
  ∧ StatusCode.all.map R.statusCode = [0, 1, 2, 3, 4, 5, 6, 7, 8, 9, 10, 11, 12, 13]
  ∧ FaultCode.all.map R.faultCode = [0xFA, 0xFB, 0xFC, 0xFD, 0xFE, 0xFF]
  ∧ (∀ b, R.stCode b = b.extractLsb' 0 5 ∧ R.stExtend b = b.getLsbD 5 ∧ R.stPolarity b = b.extractLsb' 6 1
      ∧ R.stSuccess b = b.getLsbD 7)
  ∧ (∀ v, R.extCurSeq v = v.extractLsb' 0 32 ∧ R.extMissSeq v = v.extractLsb' 32 32)
  ∧ (∀ (W : CmdWord) (o : Opcode), R.opcodeIn W = some o ↔ o.code = W.w0.extractLsb' 0 8)
  ∧ R.admissible = true ∧ R.unambiguous = true ∧ R.holdsOperands = true
  ∧ (∀ (L : Layout) (b : Byte) (v : Word),
      L.stCode b = b.extractLsb' L.stCodeLo 5 ∧ L.stExtend b = b.getLsbD L.stExt ∧ L.stPolarity b = b.extractLsb' L.stSodd 1
      ∧ L.stSuccess b = b.getLsbD L.stSucc ∧ L.extCurSeq v = v.extractLsb' L.extCurLo 32
      ∧ L.extMissSeq v = v.extractLsb' L.extMissLo 32)
  ∧ ∀ L : Layout, L.codesFit = true →
      (∀ (W : CmdWord) (o : Opcode), L.opcodeIn W = some o ↔ W.getField L.opc = (L.opcode o).setWidth 64)
      ∧ (∀ (c : BitVec 5) (o : StatusCode), L.statusOf c = some o ↔ L.statusCode o = c)
      ∧ ∀ (c : Byte) (o : FaultCode), L.faultOf c = some o ↔ L.faultCode o = c

/-! ### The port -/

/-- A step runs the decoded instruction: with a request next on the port whose bytes decode to `i`, the step
is `exec` of `i` with that request taken off.
Rests on the spec's own choices D48. -/
def Obligations.StepRunsDecoded : Prop :=
  ∀ (s : State) (q : Request) (rest : List Input) (i : Instr),
    s.configOk = true → s.inputs = .request q :: rest → decode s.params.layout q = .ok i → step s = exec i { s with inputs := rest }

/-- What the encoder writes for any instruction, put on the port, runs that instruction, in every accepted
configuration whose layout is unambiguous and holds the operands (the model's premises, notes/assumptions/2.md).
Rests on the spec's own choices D48, D5. -/
def Obligations.StepRunsEncoded : Prop :=
  ∀ (s : State) (rest : List Input) (i : Instr),
    s.configOk = true → s.params.layout.unambiguous = true → s.params.layout.holdsOperands = true →
      s.inputs = .request (encode s.params.layout i) :: rest → i.encodable = true → step s = exec i { s with inputs := rest }

/-- An op code 0xC-0xF raises BAD_OP and changes nothing (60_exceptions.md R405).
Rests on the spec's own choices D48. -/
def Obligations.ReservedOperationRaisesBadOp : Prop :=
  ∀ (s : State) (b : Byte) (args : List Byte) (rest : List Input),
    s.configOk = true → s.inputs = .request (.hostOp (b :: args)) :: rest → 12 ≤ b.toNat → b.toNat < 16 →
      step s = .next ({ s with inputs := rest }.answered (Response.error .badOp))

/-- A write of the device to the status byte or the extended status of a slot is what the block then reads
there, the extended status least significant byte first, and no other address changes (20_memory.md R81, R83, R86,
R90).
Rests on the spec's own choices D43, D60. -/
def Obligations.DeviceWriteIsRead : Prop :=
  ∀ (s : State) (rest : List Input) (i : Nat), s.configOk = true → i < s.numSlots →
    (∀ b, s.inputs = .device (.status i b) :: rest →
      ∃ m, step s = .next { s with inputs := rest, mem := m } ∧ { s with mem := m }.readStatus i = b
        ∧ m.read (s.params.statusBase + i) = some b ∧ ∀ a, a ≠ s.params.statusBase + i → m.read a = s.mem.read a)
    ∧ (∀ v, s.inputs = .device (.ext i v) :: rest →
      ∃ m, step s = .next { s with inputs := rest, mem := m } ∧ { s with mem := m }.readExt i = v
        ∧ (∀ k, k < 8 → m.read (s.params.extBase + 8 * i + k) = some (v.extractLsb' (8 * k) 8))
        ∧ ∀ a, ¬ (s.params.extBase + 8 * i ≤ a ∧ a < s.params.extBase + 8 * i + 8) → m.read a = s.mem.read a)

/-- Every instruction answers a next state in every state: no operation throws, faults or is refused.
Rests on the spec's own choices D48. -/
def Obligations.EveryInstructionAnswers : Prop :=
  ∀ (i : Instr) (s : State), ∃ t, exec i s = .next t

/-- An operation that answers an error leaves the state as it was but for the response (60_exceptions.md R407).
Rests on the spec's own choices D48. -/
def Obligations.OperationErrorIsPrecise : Prop :=
  ∀ (i : Instr) (s t : State) (e : OpError), exec i s = .next t → t.resp.err = some e → t = s.answered (Response.error e)

/-- A slot outside the table raises BAD_SLOT before anything else, in every operation that takes a slot; an
operation that carries a `now` before `last_now` raises TIME_REGRESSION (30_encoding.md R161, 60_exceptions.md
R404, R406).
Rests on the spec's own choices D3, D48. -/
def Obligations.SlotAndTimeAreChecked : Prop :=
  ∀ (s : State) (i now : Nat),
    (s.numSlots ≤ i →
      (∀ kind, exec (.allocId i kind) s = .next (s.answered (Response.error .badSlot)))
      ∧ (∀ req, exec (.build i req) s = .next (s.answered (Response.error .badSlot)))
      ∧ (∀ d x, exec (.issue i d x now) s = .next (s.answered (Response.error .badSlot)))
      ∧ exec (.poll i now) s = .next (s.answered (Response.error .badSlot))
      ∧ (∀ req, exec (.reissue i req now) s = .next (s.answered (Response.error .badSlot)))
      ∧ exec (.detach i) s = .next (s.answered (Response.error .badSlot))
      ∧ exec (.release i) s = .next (s.answered (Response.error .badSlot)))
    ∧ (now < s.lastNow →
      (∀ t, exec (.statusRefresh t now) s = .next (s.answered (Response.error .timeRegression)))
      ∧ (i < s.numSlots →
        (∀ d x, exec (.issue i d x now) s = .next (s.answered (Response.error .timeRegression)))
        ∧ exec (.poll i now) s = .next (s.answered (Response.error .timeRegression))
        ∧ ∀ req, exec (.reissue i req now) s = .next (s.answered (Response.error .timeRegression))))

/-- The errors of the token's state, in the order of 60_exceptions.md R406: BAD_STATE, DEVICE_DEAD, then the
operation's own (SLOT_BUSY, HOST_ATTACHED, BAD_BUDDY).
Rests on the spec's own choices D22, D25, D39, D48, D50, D56. -/
def Obligations.TokenStateIsChecked : Prop :=
  ∀ (s : State) (i now : Nat), s.Accepts i now →
    (∀ kind, (s.tokAt i).st ≠ .free → exec (.allocId i kind) s = .next (s.answered (Response.error .slotBusy)))
    ∧ (∀ req, (s.tokAt i).st ≠ .allocated → (s.tokAt i).st ≠ .built →
        exec (.build i req) s = .next (s.answered (Response.error .badState)))
    ∧ (∀ req b, ((s.tokAt i).st = .allocated ∨ (s.tokAt i).st = .built) → req.buddy = some b → (s.numSlots ≤ b ∨ b = i) →
        exec (.build i req) s = .next (s.answered (Response.error .badBuddy)))
    ∧ (∀ d x, (s.tokAt i).st ≠ .built → exec (.issue i d x now) s = .next (s.answered (Response.error .badState)))
    ∧ (∀ d x, (s.tokAt i).st = .built → s.run = .dead →
        exec (.issue i d x now) s = .next (s.answered (Response.error .deviceDead)))
    ∧ (∀ req, ¬ ((s.tokAt i).st = .done ∧ ((s.tokAt i).result = .retry ∨ (s.tokAt i).result = .timeout)) →
        exec (.reissue i req now) s = .next (s.answered (Response.error .badState)))
    ∧ (∀ req, (s.tokAt i).st = .done → ((s.tokAt i).result = .retry ∨ (s.tokAt i).result = .timeout) → s.run = .dead →
        exec (.reissue i req now) s = .next (s.answered (Response.error .deviceDead)))
    ∧ ((s.tokAt i).st ≠ .done → (s.tokAt i).st ≠ .active → exec (.poll i now) s = .next (s.answered (Response.error .badState)))
    ∧ ((s.tokAt i).st = .free → exec (.detach i) s = .next (s.answered (Response.error .badState)))
    ∧ (((s.tokAt i).st = .free ∨ (s.tokAt i).st = .active) →
        exec (.release i) s = .next (s.answered (Response.error .badState)))
    ∧ (((s.tokAt i).st = .allocated ∨ (s.tokAt i).st = .built ∨ (s.tokAt i).st = .done) → (s.tokAt i).hostLive = true →
        exec (.release i) s = .next (s.answered (Response.error .hostAttached)))

/-! ### The state: reset, invariants, whole-machine rules -/

/-- RESET leaves every piece of the block's state at its reset value, whatever the state before, and leaves
parameters and device memory alone (70_reset_and_hazards.md R440, R441).
Rests on the spec's own choices D45. -/
def Obligations.ResetLeavesResetValues : Prop :=
  ∀ s : State, ∃ t, exec .opReset s = .next t ∧ t.numSlots = s.numSlots
    ∧ (∀ i, i < s.numSlots → (t.tokAt i) = Token.reset ∧ (t.slotAt i).odd = 0 ∧ (t.slotAt i).ctr = ⟨0, 0, 0⟩
        ∧ (t.slotAt i).cache = none)
    ∧ t.seqNext = 0 ∧ t.run = .running ∧ t.refreshGeneral = none ∧ t.refreshReserved = none ∧ t.active = []
    ∧ t.lastNow = 0 ∧ t.stats = ⟨0, 0, 0, 0, 0, 0, 0, 0, 0, 0, 0, 0, 0, 0, 0⟩ ∧ t.unspecSeen = false
    ∧ t.params = s.params ∧ (∀ a, t.mem.read a = s.mem.read a) ∧ t.submitted = s.submitted ∧ t.resp = Response.empty

/-- The state after reset meets the invariants below, for every number of slots and all parameters; the values
this rests on are the spec's (70_reset_and_hazards.md R441), the parameters free.
Rests on the spec's own choices D45. -/
def Obligations.ResetIsSafe : Prop :=
  State.reset.Safe ∧ ∀ (n : Nat) (p : Params), (State.resetWith n p).Safe

/-- Every step keeps the invariants of 10_state.md R39: the active list is exactly the active tokens, each
once; results fit lifecycle states; an active token's polarity is its slot's; a free token is a reset token.
Rests on the spec's own choices D20, D35. -/
def Obligations.BlockInvariantKept : Prop :=
  ∀ s t : State, s.BlockInv → step s = .next t → t.BlockInv

/-- Every step keeps every recorded time at or before `last_now`, and memory in its canonical form.
Rests on the spec's own choices D3, D26. -/
def Obligations.TimesAndMemoryFormKept : Prop :=
  ∀ s t : State, step s = .next t → (s.TimeInv → t.TimeInv) ∧ (s.mem.wf = true → t.mem.wf = true)

/-- Every step keeps every Command Word the block holds or has written clean, in every unambiguous layout (the model's
premise, notes/assumptions/2.md): every bit outside its fields 0, no reserved opcode, direction or metadata code
(30_encoding.md R118, R119, R121, R132).
Rests on the spec's own choices D5, D12, D15, D16. -/
def Obligations.CommandWordsStayClean : Prop :=
  ∀ s t : State, s.params.layout.unambiguous = true → s.CleanInv → step s = .next t → t.CleanInv

/-- No step writes the parameters or the configuration, or changes the number of slots (10_state.md R62).
Rests on the spec's own choices D44. -/
def Obligations.ConfigurationIsFixed : Prop :=
  ∀ s t : State, step s = .next t → t.params = s.params ∧ t.numSlots = s.numSlots

/-- The run state is RUNNING at reset, is left by any abort-hard and comes back by RESET alone: whatever the operation, a
token that gets the result ABORT_HARD and an event Halted both go with DEAD, a run state that turns DEAD with the event
Halted of a token that has that result, also where the state was DEAD before; no operation but POLL enters DEAD, none but
RESET leaves it (10_state.md R43, 60_exceptions.md R412). -/
def Obligations.DeadStateRules : Prop :=
  (∀ (n : Nat) (p : Params), (State.resetWith n p).run = .running)
  ∧ (∀ s : State, ∃ t, exec .opReset s = .next t ∧ t.run = .running)
  ∧ ∀ (i : Instr) (s t : State), exec i s = .next t →
    (i ≠ .opReset → s.run = .dead → t.run = .dead)
    ∧ (i ≠ .opReset → (∀ j now, i ≠ .poll j now) → t.run = s.run)
    ∧ (∀ j, (s.tokAt j).result ≠ .abortHard → (t.tokAt j).result = .abortHard → t.run = .dead)
    ∧ (∀ j w, Event.halted j w ∈ t.resp.events →
        t.run = .dead ∧ (t.tokAt j).result = .abortHard ∧ (t.tokAt j).why = some w)
    ∧ (s.run = .running → t.run = .dead → ∃ j w, Event.halted j w ∈ t.resp.events)

/-- The block writes no memory but its command slots, and only ISSUE, REISSUE and POLL write at all; what they
write are whole submitted commands of slots of the table (20_memory.md R80, R81, R85, R87).  In DEAD no operation writes
device memory or submits a command (60_exceptions.md R411, 43_timeout_ooo.md R387).
Rests on the spec's own choices D39, D42, D43. -/
def Obligations.OnlyCommandSlotsAreWritten : Prop :=
  ∀ (i : Instr) (s t : State), exec i s = .next t →
    (s.run = .dead → t.submitted = s.submitted ∧ ∀ a, t.mem.read a = s.mem.read a)
    ∧ (s.BlockInv →
      (∀ a, (∀ j, j < s.numSlots → ¬ s.inCmdSlot j a) → t.mem.read a = s.mem.read a)
      ∧ ((∀ j d x now, i ≠ .issue j d x now) → (∀ j req now, i ≠ .reissue j req now) → (∀ j now, i ≠ .poll j now) →
          t.submitted = s.submitted ∧ ∀ a, t.mem.read a = s.mem.read a)
      ∧ ∃ l : List (Nat × CmdWord), t.submitted = s.submitted ++ l ∧ ∀ p ∈ l, p.1 < s.numSlots)

/-- A slot's polarity and the sequence counter change only at a launch, by ISSUE or REISSUE of that slot: the
polarity toggles, the counter advances by one (10_state.md R40, R42; 41_token_pool.md R252, R253).
Rests on the spec's own choices D19, D20. -/
def Obligations.PolarityAndSequenceOnlyAtLaunch : Prop :=
  ∀ (i : Instr) (s t : State), exec i s = .next t → i ≠ .opReset →
    (∀ j, (t.slotAt j).odd = (s.slotAt j).odd ∨
      ((t.slotAt j).odd = (s.slotAt j).odd ^^^ 1 ∧ (t.tokAt j).st = .active
        ∧ ((∃ d x now, i = .issue j d x now) ∨ ∃ req now, i = .reissue j req now)))
    ∧ (t.seqNext = s.seqNext ∨
      (t.seqNext = s.seqNext + 1 ∧ ((∃ j d x now, i = .issue j d x now) ∨ ∃ j req now, i = .reissue j req now)))

/-- The status cache changes only by STATUS_REFRESH (and RESET); `unspec_seen`, once set, is cleared by RESET
alone and set by POLL alone; `last_now` never goes back but by RESET (10_state.md R44, R47, R49).
Rests on the spec's own choices D3, D29, D41. -/
def Obligations.CacheFlagAndTimeRules : Prop :=
  ∀ (i : Instr) (s t : State), exec i s = .next t → i ≠ .opReset →
    ((∀ y now, i ≠ .statusRefresh y now) → ∀ j, (t.slotAt j).cache = (s.slotAt j).cache)
    ∧ (s.unspecSeen = true → t.unspecSeen = true)
    ∧ ((∀ j now, i ≠ .poll j now) → t.unspecSeen = s.unspecSeen)
    ∧ s.lastNow ≤ t.lastNow

/-- The statistics are diagnostic: two states that differ in them alone run every instruction to states that
differ in them alone, with one response (10_state.md R48). -/
def Obligations.StatisticsDecideNothing : Prop :=
  ∀ (i : Instr) (s t : State) (c : Stats), exec i s = .next t → ∃ c', exec i { s with stats := c } = .next { t with stats := c' }

/-! ### The command encoder (40_cmdgen.md) -/

/-- ENC_BUILD of the kinds that carry data answers the word of their rule and changes nothing: READ (R175-R178),
WRITE (R180-R183), GET_PARAMS (R187), SET_PARAMS (R188), for each of the four sizes: the fields at the places an
admissible, unambiguous layout gives them (notes/assumptions/2.md), in the reference layout the very words of the rules
(State.Builds).
Rests on the spec's own choices D5, D14, D15, D16, D17, D51. -/
def Obligations.EncBuildTransfers : Prop :=
  ∀ (s : State) (req : BuildReq) (z : BitVec 2),
    s.params.layout.admissible = true → s.params.layout.unambiguous = true → req.msize ≠ 3 →
    let dup := s.params.cfg.dupcheck
    let buf (x : Option Byte) : Byte := x.getD 0xFF
    let bcnt : BitVec 56 := if z = 3 then 0 else (1 : BitVec 56) <<< z.toNat
    (req.h2dLen = 0 → req.d2hLen = lenOf z →
      (req.kind = 0 → s.Builds req (if z = 3 then .pageRead else .extRead) (if z = 3 then 0x05 else 0x07) 2 z dup
        req.lba ((buf req.coreBuf).setWidth 56 ||| bcnt <<< 8) 0 0 0)
      ∧ (req.kind = 5 → s.Builds req .getParams 0x16 2 z dup (req.param.setWidth 56) ((buf req.coreBuf).setWidth 56) 0 0 0))
    ∧ (req.d2hLen = 0 → req.h2dLen = lenOf z →
      (req.kind = 1 → s.Builds req (if z = 3 then .pageWrite else .extWrite) (if z = 3 then 0x06 else 0x08) 1 z dup
        ((buf req.wbuf0).setWidth 56 ||| bcnt <<< 8 ||| (buf req.wbuf1).setWidth 56 <<< 16 ||| (buf req.wbuf2).setWidth 56 <<< 24)
        req.lba 0 0 0)
      ∧ (req.kind = 6 → s.Builds req .setParams 0x17 1 z dup ((buf req.wbuf0).setWidth 56) (req.param.setWidth 56) 0 0 0))

/-- ENC_BUILD of the kinds that carry no data answers the word of their rule and changes nothing: TRIM (R186),
GET_REG (R184), PUT_REG (R185), CANCEL (R192), RESET (R193), NULL (R194), SATA_REINIT (R195), SHUTDOWN (R196),
SEQ_ADVANCE (R197), in every admissible, unambiguous layout (State.Builds, notes/assumptions/2.md).
Rests on the spec's own choices D5, D14, D17, D51, D52. -/
def Obligations.EncBuildControls : Prop :=
  ∀ (s : State) (req : BuildReq),
    s.params.layout.admissible = true → s.params.layout.unambiguous = true → req.msize ≠ 3 → NoLength req →
    let is (o : Opcode) (opc : Byte) (src dst : BitVec 56) := s.Builds req o opc 0 0 s.params.cfg.dupcheck src dst 0 0 0
    (req.kind = 2 → is .trim 0x09 req.lba (req.count.setWidth 56))
    ∧ (req.kind = 3 → is .getReg 0x01 req.reg 0)
    ∧ (req.kind = 4 → is .putReg 0x02 req.value req.reg)
    ∧ (req.kind = 8 → is .cancel 0x1C (req.target.setWidth 56) 0)
    ∧ (req.kind = 9 → is .reset 0x03 0 0)
    ∧ (req.kind = 10 → is .null 0x00 0 0)
    ∧ (req.kind = 11 → is .sataReinit 0x1B 0 0)
    ∧ (req.kind = 12 → is .shutdown 0x0E 0 0)
    ∧ (req.kind = 13 → req.seqCount ≠ 0 → req.seqCount < 2 ^ 32 → is .seqAdvance 0x12 (BitVec.ofNat 56 req.seqCount) 0)

/-- ENC_BUILD of PASSTHROUGH answers the word of R200-R204, with `DUPCHK = 0`, for both forms, every protocol the
encoder takes and every size; ENC_BUILD of RAW the word of R209, for each of the fifteen opcodes it builds
(R210-R224), every direction and size, in every admissible, unambiguous layout (State.Builds,
notes/assumptions/2.md).  Neither changes anything.
Rests on the spec's own choices D5, D13, D14, D17, D18, D51. -/
def Obligations.EncBuildPassthroughAndRaw : Prop :=
  ∀ (s : State) (req : BuildReq) (z : BitVec 2),
    s.params.layout.admissible = true → s.params.layout.unambiguous = true → req.msize ≠ 3 →
    let buf (x : Option Byte) : Byte := x.getD 0xFF
    let byte (k : Nat) : Byte := req.cdb.getD k 0
    let proto : BitVec 4 := (byte 1).extractLsb' 1 4
    let pt (dir dsz : BitVec 2) :=
      s.Builds req .devPassthru 0x0B dir dsz false ((buf req.wbuf0).setWidth 56) ((buf req.coreBuf).setWidth 56)
        (sevenBytes byte) (sevenBytes fun k => byte (7 + k)) ((byte 15 ++ byte 14).setWidth 56)
    (req.kind = 7 → PassthroughForm req.cdb →
      (proto = 3 → NoLength req → pt 0 0)
      ∧ (proto = 4 → req.h2dLen = 0 → req.d2hLen = lenOf z → pt 2 z)
      ∧ (proto = 5 → req.d2hLen = 0 → req.h2dLen = lenOf z → pt 1 z))
    ∧ (req.kind = 14 → ∀ o ∈ rawOpcodes, req.rawOpcode = s.params.layout.opcode o →
      let raw (dir dsz : BitVec 2) :=
        s.Builds req o req.rawOpcode dir dsz s.params.cfg.dupcheck req.rawSrc req.rawDst 0 0 0
      (NoLength req → raw 0 0)
      ∧ (req.d2hLen = 0 → req.h2dLen = lenOf z → raw 1 z)
      ∧ (req.h2dLen = 0 → req.d2hLen = lenOf z → raw 2 z))

/-- The encoder's rejections, each before those that follow it in 60_exceptions.md R406, on ENC_BUILD
(40_cmdgen.md R171, R173, R197, R200-R203, R209), in every layout with one code for each name (`codesFit`,
the model's premise, notes/assumptions/2.md).
Rests on the spec's own choices D14, D15, D16, D18, D48, D52. -/
def Obligations.EncBuildRejects : Prop :=
  ∀ (s : State) (req : BuildReq), s.params.layout.codesFit = true →
    let err (e : OpError) := exec (.encBuild req) s = .next (s.answered (Response.error e))
    let len := req.h2dLen + req.d2hLen
    let both := req.h2dLen ≠ 0 ∧ req.d2hLen ≠ 0
    let sized := len = 512 ∨ len = 1024 ∨ len = 2048 ∨ len = 4096
    let rawOk := ∃ o ∈ rawOpcodes, req.rawOpcode = s.params.layout.opcode o
    let proto : BitVec 4 := (req.cdb.getD 1 0).extractLsb' 1 4
    (14 < req.kind.toNat → err .badKind)
    ∧ (req.kind.toNat ≤ 14 → req.msize = 3 → err .badMsize)
    ∧ (req.msize ≠ 3 → req.kind = 14 → ¬ rawOk → err .badOpcode)
    ∧ (req.msize ≠ 3 → req.kind = 7 → ¬ PassthroughForm req.cdb → err .badPtOpcode)
    ∧ (req.msize ≠ 3 → req.kind = 7 → PassthroughForm req.cdb → proto ∉ ([3, 4, 5] : List (BitVec 4)) → err .badProtocol)
    ∧ (req.msize ≠ 3 → (req.kind.toNat < 14 ∧ req.kind ≠ 7 ∨ req.kind = 14 ∧ rawOk
          ∨ req.kind = 7 ∧ PassthroughForm req.cdb ∧ proto ∈ ([3, 4, 5] : List (BitVec 4))) →
        (both → err .bidir)
        ∧ (¬ both → len ≠ 0 → ¬ sized → err .badSize)
        ∧ (req.d2hLen = 0 → (len = 0 ∨ sized) → (req.kind = 0 ∨ req.kind = 5) → err .badDir)
        ∧ (req.h2dLen = 0 → (len = 0 ∨ sized) → (req.kind = 1 ∨ req.kind = 6) → err .badDir)
        ∧ (¬ both → sized → req.kind ∈ ([2, 3, 4, 8, 9, 10, 11, 12, 13] : List Byte) → err .badDir)
        ∧ (¬ both → sized → req.kind = 7 → proto = 3 → err .badDir)
        ∧ (req.d2hLen = 0 → (len = 0 ∨ sized) → req.kind = 7 → proto = 4 → err .badDir)
        ∧ (req.h2dLen = 0 → (len = 0 ∨ sized) → req.kind = 7 → proto = 5 → err .badDir)
        ∧ (len = 0 → req.kind = 13 → (req.seqCount = 0 ∨ 2 ^ 32 ≤ req.seqCount) → err .badSeqCount))

/-- ENC_FINALIZE answers the finalized word and changes nothing; in every admissible, unambiguous layout whose fields hold
their operands (the last two the model's premises, notes/assumptions/2.md) its stamped fields are the arguments, the
checksum's MSBs those the layout names, and every other bit of words 0-2, 6 and 7 and, unless `DUPCHK` is 1, of words
3-5 is the operand's; in the reference layout that is said bit by bit (R226-R228, R230, R231).
Rests on the spec's own choices D5, D7. -/
def Obligations.FinalizeStampsTheWord : Prop :=
  ∀ (s : State) (W : CmdWord) (odd : BitVec 1) (slot : Byte) (seq : BitVec 32) (dealloc : Option (BitVec 5)) (x : BitVec 128),
    let L := s.params.layout
    ∃ V, exec (.encFinalize W odd slot seq dealloc x) s = .next (s.answered (Response.ofWord V))
      ∧ (L.admissible = true → L.unambiguous = true → L.holdsOperands = true →
          V.getField L.slot = slot.setWidth 64 ∧ V.getField L.seq = seq.setWidth 64
          ∧ (∀ d, dealloc = some d → V.getField L.deallocV = 1 ∧ V.getField L.deallocId = d.setWidth 64)
          ∧ (dealloc = none → V.getField L.deallocV = 0 ∧ V.getField L.deallocId = 0)
          ∧ V.getField L.xsumLo = x.extractLsb' 0 64 &&& lowMask L.xsumLo.width
          ∧ V.getField L.xsumHi = x.extractLsb' 64 64 &&& lowMask L.xsumHi.width
          ∧ V.w5.extractLsb' 62 1 = x.extractLsb' L.msb0 1 ∧ V.w5.extractLsb' 63 1 = x.extractLsb' L.msb1 1
          ∧ (∀ p ∈ L.polarity, (V.get p.1).extractLsb' p.2 1 = odd)
          ∧ (∀ j k, j < 3 ∨ 6 ≤ j → k < 64 →
              inFields ([L.slot, L.seq, L.deallocV, L.deallocId] ++ L.xsumFields ++ L.polarityFields) j k = false →
              (V.get j).getLsbD k = (W.get j).getLsbD k)
          ∧ (W.getField L.dupChk ≠ 1 → ∀ j k, 3 ≤ j → j < 6 → k < 64 → inFields (L.polarityFields ++ msbFields) j k = false →
              (V.get j).getLsbD k = (W.get j).getLsbD k))
      ∧ (L = Layout.reference →
          V.w0.extractLsb' 8 8 = slot ∧ V.w0.extractLsb' 16 32 = seq
          ∧ (∀ d, dealloc = some d → V.w0.extractLsb' 57 1 = 1 ∧ V.w0.extractLsb' 58 5 = d)
          ∧ (dealloc = none → V.w0.extractLsb' 57 1 = 0 ∧ V.w0.extractLsb' 58 5 = 0)
          ∧ V.w6 = x.extractLsb' 0 64 ∧ V.w7 = x.extractLsb' 64 64
          ∧ V.w5.extractLsb' 62 1 = x.extractLsb' 63 1 ∧ V.w5.extractLsb' 63 1 = x.extractLsb' 127 1
          ∧ (∀ j, j < 6 → (V.get j).extractLsb' 56 1 = odd)
          ∧ V.w0.extractLsb' 0 8 = W.w0.extractLsb' 0 8 ∧ V.w0.extractLsb' 48 8 = W.w0.extractLsb' 48 8
          ∧ V.w0.extractLsb' 63 1 = W.w0.extractLsb' 63 1
          ∧ V.w1.extractLsb' 0 56 = W.w1.extractLsb' 0 56 ∧ V.w1.extractLsb' 57 7 = W.w1.extractLsb' 57 7
          ∧ V.w2.extractLsb' 0 56 = W.w2.extractLsb' 0 56 ∧ V.w2.extractLsb' 57 7 = W.w2.extractLsb' 57 7
          ∧ (W.w0.extractLsb' 51 1 = 0 →
              V.w3.extractLsb' 0 56 = W.w3.extractLsb' 0 56 ∧ V.w3.extractLsb' 57 7 = W.w3.extractLsb' 57 7
              ∧ V.w4.extractLsb' 0 56 = W.w4.extractLsb' 0 56 ∧ V.w4.extractLsb' 57 7 = W.w4.extractLsb' 57 7
              ∧ V.w5.extractLsb' 0 56 = W.w5.extractLsb' 0 56 ∧ V.w5.extractLsb' 57 5 = W.w5.extractLsb' 57 5))

/-- The laws of finalize (R232): (a) duplication and (b) polarity, for every admissible layout, with the checksum MSBs
the layout names; (c) the checksum round trip, for the layouts that hold the checksum, and (d) last writer wins, in the
reference layout, as R232 has them, and, which is the model's choice and no rule's (R232 says of (d) that it "holds for
the reference layout only"), in every admissible layout that meets the constraints of notes/assumptions/2.md
(`unambiguous`); and the rule's example in the reference layout.
Rests on the spec's own choices D5, D6, D7. -/
def Obligations.FinalizeLaws : Prop :=
  (∀ (L : Layout) (W : CmdWord) (odd : BitVec 1) (slot : Byte) (seq : BitVec 32) (dealloc : Option (BitVec 5)) (x : BitVec 128),
    L.admissible = true →
    let V := finalize L W odd slot seq dealloc x
    (W.getField L.dupChk = 1 → V.w3 = V.w0 ∧ V.w4 = V.w1 ∧ V.w5.extractLsb' 0 62 = V.w2.extractLsb' 0 62
      ∧ V.w5.extractLsb' 62 2 = x.extractLsb' L.msb1 1 ++ x.extractLsb' L.msb0 1)
    ∧ (L.polarity.length = 6 ∧ ∀ p ∈ L.polarity, (V.get p.1).extractLsb' p.2 1 = odd)
    ∧ (L.unambiguous = true →
      (L.holdsChecksum = true → L.checksumIn V = x)
      ∧ (64 ≤ L.xsumLo.width → 64 ≤ L.xsumHi.width → V.getField L.xsumHi ++ V.getField L.xsumLo = x)
      ∧ ∀ odd' slot' seq' dealloc' x',
          finalize L V odd' slot' seq' dealloc' x' = finalize L W odd' slot' seq' dealloc' x'))
  ∧ finalize Layout.reference ⟨0x0039000000000006, 0x00000000FFFF0005, 0x0000000000002000, 0, 0, 0, 0, 0⟩ 1 3 7 none
      0x0123456789ABCDEFFEDCBA9876543210
    = ⟨0x0139000000070306, 0x01000000FFFF0005, 0x0100000000002000, 0x0139000000070306, 0x01000000FFFF0005,
        0x4100000000002000, 0xFEDCBA9876543210, 0x0123456789ABCDEF⟩

/-! The command opcodes, in every admissible, unambiguous layout (notes/assumptions/2.md).  That a Command
Word handed to the block runs the encoder on its own operands is the model's reading of these rows (notes/assumptions/1.md); what the encoder answers is the rules'. -/

/-- A command with no operand, NULL, RESET, SHUTDOWN, SATA_REINIT (R193-R196), answers the Command Word its
encoding gives with the configured `DUPCHK`, and nothing else changes; a data direction on one is rejected.
Rests on the spec's own choices D5, D16, D17. -/
def Obligations.BareCommandsAnswer : Prop :=
  ∀ (s : State) (h : CmdHdr) (st : Stamp),
    s.params.layout.admissible = true → s.params.layout.unambiguous = true → h.msize ≠ 3 →
    let g := configuredHdr s.params.cfg h
    let ans (o : Opcode) := s.answered (Response.ofWord (joinParts s.params.layout (plainParts s.params.layout o { g with dsize := 0 } 0 0 st)))
    let err (e : OpError) := s.answered (Response.error e)
    (h.dir = 0 → exec (.null h st) s = .next (ans .null) ∧ exec (.cmdReset h st) s = .next (ans .reset)
      ∧ exec (.shutdown h st) s = .next (ans .shutdown) ∧ exec (.sataReinit h st) s = .next (ans .sataReinit))
    ∧ ∀ i ∈ [Instr.null h st, .cmdReset h st, .shutdown h st, .sataReinit h st],
        (h.dir = 3 → exec i s = .next (err .bidir)) ∧ ((h.dir = 1 ∨ h.dir = 2) → exec i s = .next (err .badDir))

/-- GET_REG, PUT_REG, TRIM, CANCEL and SEQ_ADVANCE (R184-R186, R192, R197) answer the Command Word their
encoding gives, operand by operand, with the configured `DUPCHK`; a data direction, or a sequence count outside
1..2^32-1, is rejected.
Rests on the spec's own choices D5, D14, D16, D17, D52. -/
def Obligations.ControlCommandsAnswer : Prop :=
  ∀ (s : State) (h : CmdHdr) (st : Stamp) (a b : BitVec 56) (count : BitVec 32) (target : Byte),
    s.params.layout.admissible = true → s.params.layout.unambiguous = true → h.msize ≠ 3 →
    let g := { (configuredHdr s.params.cfg h) with dsize := 0 }
    let ans (o : Opcode) (src dst : BitVec 56) := s.answered (Response.ofWord (joinParts s.params.layout (plainParts s.params.layout o g src dst st)))
    let err (e : OpError) := s.answered (Response.error e)
    (h.dir = 0 →
      exec (.getReg h a st) s = .next (ans .getReg a 0)
      ∧ exec (.putReg h a b st) s = .next (ans .putReg a b)
      ∧ exec (.trim h a count st) s = .next (ans .trim a (count.setWidth 56))
      ∧ exec (.cancel h target st) s = .next (ans .cancel (target.setWidth 56) 0)
      ∧ (a ≠ 0 → a.toNat < 2 ^ 32 → exec (.seqAdvance h a st) s = .next (ans .seqAdvance a 0))
      ∧ ((a = 0 ∨ 2 ^ 32 ≤ a.toNat) → exec (.seqAdvance h a st) s = .next (err .badSeqCount)))
    ∧ ∀ i ∈ [Instr.getReg h a st, .putReg h a b st, .trim h a count st, .cancel h target st, .seqAdvance h a st],
        (h.dir = 3 → exec i s = .next (err .bidir)) ∧ ((h.dir = 1 ∨ h.dir = 2) → exec i s = .next (err .badDir))

/-- PAGE_READ, EXT_READ, PAGE_WRITE, EXT_WRITE, GET_PARAMS, SET_PARAMS (R175-R188): with the kind's direction
each answers the Command Word its encoding gives, the opcode and the block count those of the word's size and
`DUPCHK` the configured one; the wrong direction is rejected.
Rests on the spec's own choices D5, D14, D15, D16, D17. -/
def Obligations.TransferCommandsAnswer : Prop :=
  ∀ (s : State) (h : CmdHdr) (st : Stamp) (lba : BitVec 56) (param : BitVec 32) (bcnt b0 b1 b2 : Byte),
    s.params.layout.admissible = true → s.params.layout.unambiguous = true → h.msize ≠ 3 →
    let g := configuredHdr s.params.cfg h
    let n : Byte := if h.dsize = 3 then 0 else (1 : Byte) <<< h.dsize.toNat
    let ans (o : Opcode) (src dst : BitVec 56) := s.answered (Response.ofWord (joinParts s.params.layout (plainParts s.params.layout o g src dst st)))
    let err (e : OpError) := s.answered (Response.error e)
    let reads := [Instr.pageRead h lba bcnt b0 st, .extRead h lba bcnt b0 st]
    let writes := [Instr.pageWrite h b0 bcnt b1 b2 lba st, .extWrite h b0 bcnt b1 b2 lba st]
    (h.dir = 2 →
      (∀ i ∈ reads, exec i s = .next (ans (if h.dsize = 3 then .pageRead else .extRead) lba (b0.setWidth 56 ||| n.setWidth 56 <<< 8)))
      ∧ exec (.getParams h param b0 st) s = .next (ans .getParams (param.setWidth 56) (b0.setWidth 56)))
    ∧ (h.dir = 1 →
      (∀ i ∈ writes, exec i s = .next (ans (if h.dsize = 3 then .pageWrite else .extWrite) 
        (b0.setWidth 56 ||| n.setWidth 56 <<< 8 ||| b1.setWidth 56 <<< 16 ||| b2.setWidth 56 <<< 24) lba))
      ∧ exec (.setParams h b0 param st) s = .next (ans .setParams (b0.setWidth 56) (param.setWidth 56)))
    ∧ (h.dir ≠ 2 → ∀ i ∈ Instr.getParams h param b0 st :: reads, exec i s = .next (err (if h.dir = 3 then .bidir else .badDir)))
    ∧ (h.dir ≠ 1 → ∀ i ∈ Instr.setParams h b0 param st :: writes, exec i s = .next (err (if h.dir = 3 then .bidir else .badDir)))

/-- DEV_PASSTHRU (R200-R205) answers the Command Word its encoding gives, with `DUPCHK = 0`, for both forms (of the
12-byte form the twelve bytes, zero-padded) and every protocol the encoder takes; other forms and protocols are
rejected.
Rests on the spec's own choices D5, D18. -/
def Obligations.PassthroughCommandAnswers : Prop :=
  ∀ (s : State) (h : CmdHdr) (st : Stamp) (wbuf0 coreBuf : Byte) (cdb : BitVec 128),
    s.params.layout.admissible = true → s.params.layout.unambiguous = true → h.msize ≠ 3 →
    let i := Instr.devPassthru h wbuf0 coreBuf cdb st
    let op : Byte := cdb.extractLsb' 0 8
    let proto : BitVec 4 := cdb.extractLsb' 9 4
    let fits := proto = 3 ∧ h.dir = 0 ∨ proto = 4 ∧ h.dir = 2 ∨ proto = 5 ∧ h.dir = 1
    let c : BitVec 128 := if op = 0xA1 then (cdb.setWidth 96).setWidth 128 else cdb
    let p : Parts :=
      { opc := s.params.layout.opcode .devPassthru, hdr := { h with dupChk := 0, dsize := if h.dir = 0 then 0 else h.dsize },
        src := wbuf0.setWidth 56, dst := coreBuf.setWidth 56, aux0 := c.extractLsb' 0 56, aux1 := c.extractLsb' 56 56,
        aux2 := (c.extractLsb' 112 16).setWidth 56, stamp := st }
    ((op = 0x85 ∨ op = 0xA1) → fits → exec i s = .next (s.answered (Response.ofWord (joinParts s.params.layout p))))
    ∧ (op ≠ 0x85 → op ≠ 0xA1 → exec i s = .next (s.answered (Response.error .badPtOpcode)))
    ∧ ((op = 0x85 ∨ op = 0xA1) → proto ∉ ([3, 4, 5] : List (BitVec 4)) →
        exec i s = .next (s.answered (Response.error .badProtocol)))
    ∧ ((op = 0x85 ∨ op = 0xA1) → proto ∈ ([3, 4, 5] : List (BitVec 4)) → h.dir = 3 →
        exec i s = .next (s.answered (Response.error .bidir)))
    ∧ ((op = 0x85 ∨ op = 0xA1) → proto ∈ ([3, 4, 5] : List (BitVec 4)) → h.dir ≠ 3 → ¬ fits →
        exec i s = .next (s.answered (Response.error .badDir)))

/-- The fifteen commands K_RAW builds (R209-R224) answer the Command Word their encoding gives, SRC and DST as
handed in and `DUPCHK` the configured one, in every direction and size; both directions at once are rejected.
Rests on the spec's own choices D5, D13, D14, D16. -/
def Obligations.RawCommandsAnswer : Prop :=
  ∀ (s : State) (h : CmdHdr) (st : Stamp) (a b : BitVec 56),
    s.params.layout.admissible = true → s.params.layout.unambiguous = true → h.msize ≠ 3 →
    let g := { (configuredHdr s.params.cfg h) with dsize := if h.dir = 0 then 0 else h.dsize }
    ∀ p ∈ [(Instr.seqRead h a b st, Opcode.seqRead), (.devStats h a b st, .devStats), (.copy h a b st, .copy),
        (.fwNull h a b st, .fwNull), (.startup h a b st, .startup), (.traceCtrl h a b st, .traceCtrl),
        (.test h a b st, .test), (.debugLog h a b st, .debugLog), (.extError h a b st, .extError),
        (.fwDownload h a b st, .fwDownload), (.crashLog h a b st, .crashLog), (.testRead h a b st, .testRead),
        (.testWrite h a b st, .testWrite), (.faultInject h a b st, .faultInject), (.diagnostic h a b st, .diagnostic)],
      (h.dir ≠ 3 → exec p.1 s = .next (s.answered (Response.ofWord (joinParts s.params.layout (plainParts s.params.layout p.2 g a b st)))))
      ∧ (h.dir = 3 → exec p.1 s = .next (s.answered (Response.error .bidir)))

/-- What `exec` answers for a well-formed command with the configured `DUPCHK` is a word that decodes to that
command: `build` and `finalize` of 40_cmdgen.md and the fields of 30_encoding.md agree on all thirty-one, in every
admissible, unambiguous layout whose fields hold their operands (notes/assumptions/2.md).
Rests on the spec's own choices D5, D7, D13, D14, D17. -/
def Obligations.CommandAnswerDecodes : Prop :=
  ∀ (i : Instr) (s : State) (p : Parts), s.params.layout.admissible = true → s.params.layout.unambiguous = true →
    s.params.layout.holdsOperands = true → i.parts s.params.layout = some p → i.wf = true →
    (p.opc = s.params.layout.opcode .devPassthru ∨ p.hdr = configuredHdr s.params.cfg p.hdr) →
      ∃ W, exec i s = .next (s.answered (Response.ofWord W)) ∧ decode s.params.layout (.command W.bytes) = .ok i

/-! ### The token pool (41_token_pool.md) -/

/-- ALLOC takes a free general slot, answers it and writes nothing but its lifecycle state, kind and carried
count (R240, R243); every free general slot is the answer of some draw (R241); with none free it raises
POOL_EXHAUSTED.  ALLOC_ID does the same for the free slot it names, general or reserved, with count 0 (R242).
Rests on the spec's own choices D22, D23, D39. -/
def Obligations.AllocationTakesAFreeSlot : Prop :=
  ∀ (s : State) (kind : Byte) (carry : Nat),
    let took (u : State) (i n : Nat) : List Slot :=
      u.slots.modify i (fun sl => { sl with tok := { sl.tok with st := .allocated, allocKind := kind, ctrGeneric := n } })
    let drew (u : State) (i : Nat) : State :=
      { u with slots := took u i carry, draws := u.draws.tail, drawCount := u.drawCount + 1, resp := Response.ofSlot i }
    let general (i : Nat) := i < s.numSlots - s.params.r ∧ (s.tokAt i).st = .free
    ((∃ i, general i) → ∃ i, general i ∧ exec (.alloc kind carry) s = .next (drew s i))
    ∧ (∀ i, general i → ∃ d, exec (.alloc kind carry) { s with draws := d :: s.draws } = .next (drew { s with draws := d :: s.draws } i))
    ∧ ((¬ ∃ i, general i) → exec (.alloc kind carry) s = .next (s.answered (Response.error .poolExhausted)))
    ∧ (∀ i, i < s.numSlots → (s.tokAt i).st = .free →
        exec (.allocId i kind) s = .next { s with slots := took s i 0, resp := Response.ofSlot i })

/-- BUILD completes on every request the encoder builds a word of: it binds that word, which is what ENC_BUILD answers,
and the request's operands to the token, and writes nothing else (R245, R246); where the word's opcode field names an
opcode, as it does in an unambiguous layout, class and device-directedness are those of its row of the table (R246,
30_encoding.md R131), which OpcodeTable states; a request the encoder rejects is
answered with the same error by ENC_BUILD and by BUILD, which changes nothing.
Rests on the spec's own choices D13, D14, D55. -/
def Obligations.BuildBindsTheRequest : Prop :=
  ∀ (s : State) (i : Nat) (req : BuildReq), i < s.numSlots → ((s.tokAt i).st = .allocated ∨ (s.tokAt i).st = .built) →
    (∀ b, req.buddy = some b → b < s.numSlots ∧ b ≠ i) →
    (∀ W, buildWord s.params.layout s.params.cfg req = .ok W →
      exec (.encBuild req) s = .next (s.answered (Response.ofWord W))
      ∧ exec (.build i req) s = .next { s with
        slots := s.slots.modify i fun sl => { sl with tok := { sl.tok with
          st := .built, cmd := W, cls := wordClass s.params.layout W, devdir := wordDevdir s.params.layout W,
          h2dLen := req.h2dLen, d2hLen := req.d2hLen, coreBuf := req.coreBuf, wbuf0 := req.wbuf0, wbuf1 := req.wbuf1,
          wbuf2 := req.wbuf2, buddy := req.buddy, reqTag := req.reqTag, hostLive := req.hostLive, quiet := req.quiet,
          xferFromHost := decide (req.h2dLen ≠ 0) } },
        resp := Response.empty }
      ∧ ∀ o, s.params.layout.opcodeIn W = some o →
          wordClass s.params.layout W = o.cls ∧ wordDevdir s.params.layout W = o.devdir)
    ∧ (∀ e, buildWord s.params.layout s.params.cfg req = .error e →
      exec (.encBuild req) s = .next (s.answered (Response.error e))
      ∧ exec (.build i req) s = .next (s.answered (Response.error e)))

/-- ISSUE of a built token the filter allows stamps and writes its command: the next polarity, the sequence
number of R253, the deadline of the queued stage (the class's entry of `cfg.tmo`, 10_state.md R61), the slot's cached byte as last observation, the place at the
end of the active list; the 64 bytes of the slot are the finalized word and nothing else changes (R250-R255).
Denied by the filter it writes no memory and takes no polarity or number: the token is DONE with ABORT,
FILTER_DENY (R256).
Rests on the spec's own choices D19, D20, D26, D35, D40, D54, D55. -/
def Obligations.IssueLaunchesOrIsDenied : Prop :=
  ∀ (s : State) (i now : Nat) (dealloc : Option (BitVec 5)) (x : BitVec 128) (has : Bool) (q : BitVec 32) (fresh : Bool),
    s.Accepts i now → (s.tokAt i).st = .built → s.run ≠ .dead → s.SeqRule i has q fresh →
    let W := finalize s.params.layout (s.tokAt i).cmd ((s.slotAt i).odd ^^^ 1) (BitVec.ofNat 8 i) q dealloc x
    let t := s.inFlight i now { s.tokAt i with dealloc := dealloc, xsum := x } has q fresh W
    (s.filterPasses W = true → exec (.issue i dealloc x now) s = .next t ∧ s.WroteSlot t i W)
    ∧ (s.filterPasses W = false → exec (.issue i dealloc x now) s = .next { s with
        slots := s.slots.modify i (fun sl => { sl with tok := { sl.tok with
          dealloc := dealloc, xsum := x, st := .done, result := .abort, why := some .filterDeny } }),
        lastNow := now, resp := Response.ofToken true .abort [] })

/-- REISSUE within its budget counts the attempt and launches again with the next polarity: the same command, or the
replacement request's word bound to the token (R251, R257).  Denied by the filter it writes no memory and takes no
polarity or number: the token, its count already one higher, is DONE with ABORT, FILTER_DENY (R256).
Rests on the spec's own choices D20, D25, D40, D56. -/
def Obligations.ReissueLaunchesAgain : Prop :=
  ∀ (s : State) (i now : Nat) (req : Option BuildReq) (tok : Token) (has : Bool) (q : BitVec 32) (fresh : Bool),
    s.Accepts i now → (s.tokAt i).st = .done → ((s.tokAt i).result = .retry ∨ (s.tokAt i).result = .timeout) →
    s.run ≠ .dead → (s.tokAt i).ctrGeneric < s.params.cfg.maxGeneric →
    (req = none ∧ tok = s.tokAt i
      ∨ ∃ r V, req = some r ∧ (∀ b, r.buddy = some b → b < s.numSlots ∧ b ≠ i)
        ∧ buildWord s.params.layout s.params.cfg r = .ok V ∧ tok = (s.tokAt i).bind s.params.layout r V) →
    (s.modTok i fun _ => tok).SeqRule i has q fresh →
    let W := finalize s.params.layout tok.cmd ((s.slotAt i).odd ^^^ 1) (BitVec.ofNat 8 i) q tok.dealloc tok.xsum
    let t := s.inFlight i now { tok with ctrGeneric := tok.ctrGeneric + 1 } has q fresh W
    (s.filterPasses W = true → exec (.reissue i req now) s = .next t ∧ s.WroteSlot t i W)
    ∧ (s.filterPasses W = false → exec (.reissue i req now) s = .next { s with
        slots := s.slots.modify i (fun sl => { sl with tok := { tok with
          ctrGeneric := tok.ctrGeneric + 1, st := .done, result := .abort, why := some .filterDeny } }),
        lastNow := now, resp := Response.ofToken true .abort [] })

/-- REISSUE with the generic budget spent turns the result to ABORT, BUDGET_EXHAUSTED, writes no memory and
nothing else, before any replacement request is built; within budget a bad replacement is rejected and changes
nothing (R257, R258, 60_exceptions.md R406).
Rests on the spec's own choices D25, D48, D56. -/
def Obligations.ReissueBudgetAndRejection : Prop :=
  ∀ (s : State) (i now : Nat) (req : Option BuildReq),
    s.Accepts i now → (s.tokAt i).st = .done → ((s.tokAt i).result = .retry ∨ (s.tokAt i).result = .timeout) → s.run ≠ .dead →
    (s.params.cfg.maxGeneric ≤ (s.tokAt i).ctrGeneric →
      exec (.reissue i req now) s = .next { s with
        slots := s.slots.modify i (fun sl => { sl with tok := { sl.tok with result := .abort, why := some .budgetExhausted } }),
        lastNow := now, resp := Response.ofToken true .abort [] })
    ∧ ((s.tokAt i).ctrGeneric < s.params.cfg.maxGeneric → ∀ r, req = some r →
      (∀ b, r.buddy = some b → (s.numSlots ≤ b ∨ b = i) →
        exec (.reissue i req now) s = .next (s.answered (Response.error .badBuddy)))
      ∧ ((∀ b, r.buddy = some b → b < s.numSlots ∧ b ≠ i) → ∀ e,
          buildWord s.params.layout s.params.cfg r = .error e →
            exec (.reissue i req now) s = .next (s.answered (Response.error e))))

/-- No token is launched more often than its budget: whatever the operation but ALLOC, which sets the count it is given,
the generic count of a slot never ends past the larger of what it was and `max_generic`, and where it rises it rises by
one and by REISSUE of that slot (R258, R259).
Rests on the spec's own choices D25. -/
def Obligations.GenericBudgetBounds : Prop :=
  ∀ (i : Instr) (s t : State) (j : Nat), exec i s = .next t → (∀ kind carry, i ≠ .alloc kind carry) →
    (t.tokAt j).ctrGeneric ≤ max (s.tokAt j).ctrGeneric s.params.cfg.maxGeneric
    ∧ ((s.tokAt j).ctrGeneric < (t.tokAt j).ctrGeneric →
        (t.tokAt j).ctrGeneric = (s.tokAt j).ctrGeneric + 1 ∧ ∃ req now, i = .reissue j req now)

/-- DETACH clears `host_live` of any token but a FREE one and writes nothing else (R260).  RELEASE of a detached
token that is not active returns the slot to FREE: the reset token, its retry counters 0, the event with its
buffers; polarity and status cache of the slot, and everything else, stay (R262, R263).
Rests on the spec's own choices D50. -/
def Obligations.DetachAndRelease : Prop :=
  ∀ (s : State) (i : Nat), i < s.numSlots →
    let t := s.tokAt i
    (t.st ≠ .free → exec (.detach i) s = .next { s with
      slots := s.slots.modify i (fun sl => { sl with tok := { sl.tok with hostLive := false } }), resp := Response.empty })
    ∧ ((t.st = .allocated ∨ t.st = .built ∨ t.st = .done) → t.hostLive = false →
      exec (.release i) s = .next { s with
        slots := s.slots.modify i (fun sl => { tok := Token.reset, odd := sl.odd, ctr := ⟨0, 0, 0⟩, cache := sl.cache }),
        resp := { Response.empty with events := [.released i t.coreBuf t.wbuf0 t.wbuf1 t.wbuf2 t.rdbuf] } })

/-- STATUS_REFRESH reads the status byte of every slot of its type into the cache, sets the refresh time of that
type, and changes nothing else, whatever the slots' states and the run state: no token, no memory, no slot of the
other type; an earlier `now` is rejected (R270, 10_state.md R33). -/
def Obligations.RefreshFillsTheCache : Prop :=
  ∀ (s : State) (y : TokenType) (now : Nat),
    (s.lastNow ≤ now →
      ∃ t, exec (.statusRefresh y now) s = .next t ∧ t.numSlots = s.numSlots
        ∧ (∀ i, i < s.numSlots → t.slotAt i =
            { s.slotAt i with
              cache := if (y = .general ↔ i < s.numSlots - s.params.r) then some (s.mem.byteAt (s.params.statusBase + i))
                else (s.slotAt i).cache })
        ∧ t = { s with
                slots := t.slots, lastNow := now, resp := Response.empty,
                refreshGeneral := if y = .general then some now else s.refreshGeneral,
                refreshReserved := if y = .reserved then some now else s.refreshReserved })
    ∧ (now < s.lastNow → exec (.statusRefresh y now) s = .next (s.answered (Response.error .timeRegression)))

/-! ### The status decoder (42_status_decoder.md) -/

/-- POLL of a DONE token answers its result (R288); POLL of an active token whose status has not changed, with no
re-write due and no deadline passed, answers NOT_COMPLETE (R282, R287).  Either changes nothing but `last_now`
(60_exceptions.md R404; for the DONE token that is the model's reading, notes/assumptions/17.md).
Rests on the spec's own choices D28, D54, D58. -/
def Obligations.PollWithNothingNew : Prop :=
  ∀ (s : State) (i now : Nat), s.Accepts i now →
    ((s.tokAt i).st = .done →
      exec (.poll i now) s = .next { s with lastNow := now, resp := Response.ofToken true (s.tokAt i).result [] })
    ∧ (s.Polling i → s.Unchanged i → s.NotLost i now →
      now < (s.tokAt i).armedTime + (s.tokAt i).tmoDur →
      exec (.poll i now) s = .next { s with lastNow := now, resp := Response.ofToken false .notComplete [] })

/-- POLL of a stale byte records it as observed and touches the token; result, counters, buffers and timers stay, and the
POLL goes on to the steps after the decode, the timeout check among them; with no deadline passed it answers
NOT_COMPLETE (R280, R282, R284, R286).
Rests on the spec's own choices D28, D54. -/
def Obligations.PollStaleIsNotDecoded : Prop :=
  ∀ (s : State) (i now : Nat) (b : Byte), s.Accepts i now → s.Polling i → s.Changed i b →
    s.params.layout.stPolarity b ≠ (s.tokAt i).odd →
      s.Waits i now { s.tokAt i with lastStatus := some b, extCache := none, touchedTime := some now } s.stats.changed
        [.statusChanged i b]

/-- A fresh success byte completes the command with OK: a read records the completion buffer when the
configuration says so, the other classes free their write buffers; with EXT the extended status is read once and
logged (R290-R292).
Rests on the spec's own choices D38, D41. -/
def Obligations.PollSuccess : Prop :=
  ∀ (s : State) (i now : Nat) (b : Byte), s.Fresh i now b → s.params.layout.stSuccess b = true →
    let v := s.readExt i
    let t := { ((s.tokAt i).seen b now).withExt s.params.layout b v with result := Result.ok }
    let stats := if s.params.layout.stExtend b = true then { s.stats.changed with warning := s.stats.warning + 1 } else s.stats.changed
    let warn := if s.params.layout.stExtend b = true then [Event.log .warn i .devWarning (some v)] else []
    let ends (t : Token) (evs : List Event) :=
      exec (.poll i now) s = .next (s.concluded i now t (s.slotAt i).ctr stats (Event.statusChanged i b :: evs ++ warn))
    (t.cls = .read → s.params.cfg.rdbufFromStatus = true →
      ends { t with rdbuf := some (s.params.layout.stCode b) } [.rdBufDone i (s.params.layout.stCode b)])
    ∧ (t.cls = .read → s.params.cfg.rdbufFromStatus = false → ends t [])
    ∧ (t.cls ≠ .read → ends t.freed (t.freeEvents i))

/-- A fresh progress byte re-arms the deadline with the class's entry of `cfg.tmo` for the stage it names (R300, 10_state.md
R61); on the write path it frees the write buffers and fires early commit, once, when the stage is at or past the
configured one in the order QUEUED, RECEIVED, WAIT_DEV (R302); SEQUENCED on the control path does nothing (R300-R303).
In each case the POLL goes on to the steps after the decode (R280), and answers NOT_COMPLETE unless a deadline has passed
(State.Waits).  A stage timeout of 0 elapses in that very POLL, which is the model's reading
(notes/assumptions/24.md).
Rests on the spec's own choices D26, D28 (R280), D34 (R285, the mark a fresh status clears), D36, D37. -/
def Obligations.PollProgress : Prop :=
  ∀ (s : State) (i now : Nat) (b : Byte) (p : StatusCode × Stage),
    p ∈ [(StatusCode.queued, Stage.queued), (.received, .received), (.pending, .waitDev), (.sequenced, .waitDev)] →
    s.FreshCode i now b p.1 →
    let c := s.params.cfg
    let seen := (s.tokAt i).seen b now
    let t := { seen with stage := p.2, armedTime := now, tmoDur := (c.timeouts seen.cls).entry p.2 }
    let commits := t.earlyCommitted = false
      ∧ (c.commitStage = .queued ∨ c.commitStage = .received ∧ p.2 ≠ .queued ∨ c.commitStage = .waitDev ∧ p.2 = .waitDev)
    let waits (t : Token) (evs : List Event) := s.Waits i now t s.stats.changed (Event.statusChanged i b :: evs)
    (t.cls = .control → p.1 = .sequenced → waits seen [])
    ∧ (t.cls = .read ∨ (t.cls = .control ∧ p.1 ≠ .sequenced) → waits t [])
    ∧ (t.cls = .write → ¬ commits → waits t.freed (t.freeEvents i))
    ∧ (t.cls = .write → commits →
        waits { t.freed with earlyCommitted := true, hostLive := false } (t.freeEvents i ++ [.earlyCommit i t.reqTag]))

/-- COLLISION is counted and gives RETRY on every class (R310); FIELD_ERROR is counted and gives RETRY, and the
transfer flag of an early-committed write is cleared (R311); a reserved code, one that names no failure, gives ABORT, UNSPEC_CODE
and sets `unspec_seen` (R340).
Rests on the spec's own choices D29, D57. -/
def Obligations.PollCollisionFieldAndReserved : Prop :=
  ∀ (s : State) (i now : Nat) (b : Byte),
    let seen := (s.tokAt i).seen b now
    let st := s.stats.changed
    let ends (t : Token) (stats : Stats) := s.concluded i now t (s.slotAt i).ctr stats [.statusChanged i b]
    (s.FreshCode i now b .collision →
      exec (.poll i now) s = .next (ends { seen with result := .retry, why := some .collision } { st with collision := st.collision + 1 }))
    ∧ (s.FreshCode i now b .fieldError →
      exec (.poll i now) s = .next (ends
        { seen with
          result := .retry, why := some .field,
          xferFromHost := if seen.cls = .write ∧ seen.earlyCommitted = true then false else seen.xferFromHost }
        { st with field := st.field + 1 }))
    ∧ (s.Fresh i now b → s.params.layout.stSuccess b = false → s.params.layout.statusOf (s.params.layout.stCode b) = none →
      exec (.poll i now) s = .next { ends { seen with result := .abort, why := some .unspecCode } st with unspecSeen := true })

/-- ECC_ERROR and XSUM_ERROR count in the slot and give RETRY while their budget lasts; after it ECC gives ABORT
and XSUM the unknown-command handling (R321, R324, 10_state.md R64).  UNKNOWN_HW is that handling: counted, ABORT,
or abort-hard for a write when the configuration halts on write errors (R322, 60_exceptions.md R410).
Rests on the spec's own choices D25, D29, D31. -/
def Obligations.PollBudgetedAndUnknown : Prop :=
  ∀ (s : State) (i now : Nat) (b : Byte),
    let t := (s.tokAt i).seen b now
    let c := s.slotAt i |>.ctr
    let k := s.params.cfg
    let st := s.stats.changed
    let ends (r : Result) (w : Reason) (ctr : RetryCtr) (stats : Stats) :=
      exec (.poll i now) s = .next (s.concluded i now { t with result := r, why := some w } ctr stats [.statusChanged i b])
    let unknown (ctr : RetryCtr) (stats : Stats) :=
      (¬ (k.haltOnWriteError = true ∧ t.cls = .write) → ends .abort .unknownHw ctr { stats with unknownHw := stats.unknownHw + 1 })
      ∧ (k.haltOnWriteError = true → t.cls = .write →
          exec (.poll i now) s = .next { s.concluded i now { t with result := .abortHard, why := some .unknownHw } ctr
            { stats with unknownHw := stats.unknownHw + 1 } [.statusChanged i b, .halted i .unknownHw] with run := .dead })
    (s.FreshCode i now b .eccError →
      (c.ecc < k.maxEcc → ends .retry .ecc { c with ecc := c.ecc + 1 } { st with ecc := st.ecc + 1 })
      ∧ (k.maxEcc ≤ c.ecc → ends .abort .eccBudget { c with ecc := c.ecc + 1 } { st with ecc := st.ecc + 1 }))
    ∧ (s.FreshCode i now b .xsumError →
      (c.xsum < k.maxXsum → ends .retry .xsum { c with xsum := c.xsum + 1 } { st with xsum := st.xsum + 1 })
      ∧ (k.maxXsum ≤ c.xsum → unknown { c with xsum := c.xsum + 1 } { st with xsum := st.xsum + 1 }))
    ∧ (s.FreshCode i now b .unknownHw → unknown c st)

/-- ILLEGAL_CMD without EXT gives ABORT; with EXT the fault subtype decides: fatal is abort-hard, unknown command
is the handling of R322, a byte that names no subtype gives ABORT and sets `unspec_seen` (R314, R318, R319).
Rests on the spec's own choices D11, D30, D31. -/
def Obligations.PollIllegalCommand : Prop :=
  ∀ (s : State) (i now : Nat) (b : Byte), s.FreshCode i now b .illegalCmd →
    let seen := (s.tokAt i).seen b now
    let stats := { s.stats.changed with illegal := s.stats.illegal + 1 }
    let v := s.readExt i
    let t := { seen with extCache := some v }
    let ctr := (s.slotAt i).ctr
    let ev := Event.statusChanged i b
    let fc := s.params.layout.faultOf (v.extractLsb' 0 8)
    (s.params.layout.stExtend b = false →
      exec (.poll i now) s = .next (s.concluded i now { seen with result := .abort, why := some .illegalNoExt } ctr stats [ev]))
    ∧ (s.params.layout.stExtend b = true → fc = some .fatal →
      exec (.poll i now) s = .next { s.concluded i now { t with result := .abortHard, why := some .fatalFw } ctr stats
        [ev, .halted i .fatalFw] with run := .dead })
    ∧ (s.params.layout.stExtend b = true → fc = some .unknownCmd → s.params.cfg.haltOnWriteError = true ∧ t.cls = .write →
      exec (.poll i now) s = .next { s.concluded i now { t with result := .abortHard, why := some .unknownHw } ctr
        { stats with unknownHw := stats.unknownHw + 1 } [ev, .halted i .unknownHw] with run := .dead })
    ∧ (s.params.layout.stExtend b = true → fc = some .unknownCmd → ¬ (s.params.cfg.haltOnWriteError = true ∧ t.cls = .write) →
      exec (.poll i now) s = .next (s.concluded i now { t with result := .abort, why := some .unknownHw } ctr
        { stats with unknownHw := stats.unknownHw + 1 } [ev]))
    ∧ (s.params.layout.stExtend b = true → fc = none →
      exec (.poll i now) s = .next { s.concluded i now { t with result := .abort, why := some .unknownFc } ctr stats [ev] with
        unspecSeen := true })

/-- The retryable fault subtypes: checksum and WEP timeout count in the slot and give RETRY while the budget
lasts, ABORT after; ECC and command offset give RETRY (R315-R317, 10_state.md R64).
Rests on the spec's own choices D11, D25, D41. -/
def Obligations.PollRetryableFault : Prop :=
  ∀ (s : State) (i now : Nat) (b : Byte), s.FreshCode i now b .illegalCmd → s.params.layout.stExtend b = true →
    let v := s.readExt i
    let t := { (s.tokAt i).seen b now with extCache := some v }
    let c := (s.slotAt i).ctr
    let fc := s.params.layout.faultOf (v.extractLsb' 0 8)
    let ends (r : Result) (w : Reason) (ctr : RetryCtr) :=
      exec (.poll i now) s = .next (s.concluded i now { t with result := r, why := some w } ctr
        { s.stats.changed with illegal := s.stats.illegal + 1 } [.statusChanged i b])
    (fc = some .xsum → c.xsum < s.params.cfg.maxXsum → ends .retry .hwXsum { c with xsum := c.xsum + 1 })
    ∧ (fc = some .xsum → s.params.cfg.maxXsum ≤ c.xsum → ends .abort .xsumBudget { c with xsum := c.xsum + 1 })
    ∧ (fc = some .wepTimeout → c.wep < s.params.cfg.maxWep → ends .retry .hwWep { c with wep := c.wep + 1 })
    ∧ (fc = some .wepTimeout → s.params.cfg.maxWep ≤ c.wep → ends .abort .wepBudget { c with wep := c.wep + 1 })
    ∧ (fc = some .ecc → ends .retry .hwEcc c)
    ∧ (fc = some .cmdOffset → ends .retry .hwCmdOffset c)

/-- EXE_ERROR of a device-directed command is logged and halts the device; of any other command it gives ABORT
(R320, 60_exceptions.md R410).  DEV_WARNING is counted and logged, re-arms the deadline for the wait-device stage, and
leaves the command pending (R326); the POLL then goes on to its next steps (R280, State.Waits).  A wait-device timeout of
0 elapses in that very POLL, which is the model's reading (notes/assumptions/24.md).
Rests on the spec's own choices D28 (R280), D34 (R285, the mark a fresh status clears), D41 (R283, the extended status read
afresh and kept). -/
def Obligations.PollExecutionErrorAndWarning : Prop :=
  ∀ (s : State) (i now : Nat) (b : Byte),
    let seen := (s.tokAt i).seen b now
    let v := s.readExt i
    let t := seen.withExt s.params.layout b v
    let exe := { s.stats.changed with exe := s.stats.exe + 1 }
    let d := (s.params.cfg.timeouts t.cls).waitDev
    (s.FreshCode i now b .exeError → seen.devdir = true →
      exec (.poll i now) s = .next { s.concluded i now { t with result := .abortHard, why := some .exeDevdir } (s.slotAt i).ctr exe
        [.statusChanged i b, .log .err i .exeError (logged s.params.layout b v), .halted i .exeDevdir] with run := .dead })
    ∧ (s.FreshCode i now b .exeError → seen.devdir = false →
      exec (.poll i now) s = .next (s.concluded i now { seen with result := .abort, why := some .exe } (s.slotAt i).ctr exe
        [.statusChanged i b]))
    ∧ (s.FreshCode i now b .devWarning →
      s.Waits i now { t with stage := .waitDev, armedTime := now, tmoDur := d }
        { s.stats.changed with warning := s.stats.warning + 1 }
        [.statusChanged i b, .log .warn i .devWarning (logged s.params.layout b v)])

/-- DUP_ERROR gives OK to a token with a buddy (freeing write buffers off the read path), RETRY to one with a live
host buffer, ABORT otherwise (R330).
Rests on the spec's own choices D59. -/
def Obligations.PollDuplicate : Prop :=
  ∀ (s : State) (i now : Nat) (b : Byte), s.FreshCode i now b .dupError →
    let t := (s.tokAt i).seen b now
    let ends (t : Token) (evs : List Event) :=
      exec (.poll i now) s = .next (s.concluded i now t (s.slotAt i).ctr
        { s.stats.changed with oooDup := s.stats.oooDup + 1 } (Event.statusChanged i b :: evs))
    (t.buddy ≠ none → t.cls = .read → ends { t with result := .ok } [])
    ∧ (t.buddy ≠ none → t.cls ≠ .read → ends { t.freed with result := .ok } (t.freeEvents i))
    ∧ (t.buddy = none → t.hostLive = true → ends { t with result := .retry, why := some .dupRetry } [])
    ∧ (t.buddy = none → t.hostLive = false → ends { t with result := .abort, why := some .dupAbort } [])

/-- OOO on the control path does nothing; on the others it is counted and marks the token seen in hardware, and
with EXT the policy decides: OFF logs, DELAYED re-arms the stage timeout and marks the token for replay (R332,
R381, R384).  The stage timeout is the class's entry of `cfg.tmo` for the stage last reported, QUEUED before any (R361,
10_state.md R61).  In each case the POLL goes on to the steps after the decode (R280), and answers NOT_COMPLETE unless a
deadline has passed (State.Waits).  A stage timeout of 0 elapses in that very POLL, which is the model's reading
(notes/assumptions/24.md).
Rests on the spec's own choices D26 (R361), D28 (R280), D32, D33, D34 (R285, the mark a fresh status clears), D41 (R283, the
extended status read afresh and kept). -/
def Obligations.PollOutOfOrder : Prop :=
  ∀ (s : State) (i now : Nat) (b : Byte), s.FreshCode i now b .ooo →
    let seen := (s.tokAt i).seen b now
    let ext := s.params.layout.stExtend b
    let v := s.readExt i
    let t := { seen.withExt s.params.layout b v with seenInHw := true }
    let waits (t : Token) (stats : Stats) (evs : List Event) := s.Waits i now t stats (Event.statusChanged i b :: evs)
    let counted := { s.stats.changed with ooo := s.stats.ooo + 1 }
    (t.cls = .control → waits seen s.stats.changed [])
    ∧ (t.cls ≠ .control → ext = false → waits t counted [])
    ∧ (t.cls ≠ .control → ext = true → s.params.cfg.oooPolicy = .off → waits t counted [.log .info i .ooo (some v)])
    ∧ (t.cls ≠ .control → ext = true → s.params.cfg.oooPolicy = .delayed →
        waits { t with armedTime := now, tmoDur := (s.params.cfg.timeouts t.cls).entry t.stage, oooReplay := true } counted [])

/-! ### Timeouts and out-of-order recovery (43_timeout_ooo.md) -/

/-- OOO under policy QUICK with a timeout: exactly the tokens the sequence search finds are armed for the short
time, the entry of `cfg.ooo_quick` of the reporting token's class (R382, 10_state.md R60), and marked missing, no memory is
written, and the POLL goes on to the steps after the decode; with no
deadline of the polled token passed it answers NOT_COMPLETE.
Rests on the spec's own choices D10, D34, D35. -/
def Obligations.OutOfOrderArmsTheMissing : Prop :=
  ∀ (s : State) (i now : Nat) (b : Byte), s.FreshCode i now b .ooo →
    (s.tokAt i).cls ≠ .control → s.params.layout.stExtend b = true → s.params.cfg.oooPolicy = .quick →
    0 < s.params.cfg.quickTimeout (s.tokAt i).cls →
    let v := s.readExt i
    let L := s.seqSearch (s.params.layout.extMissSeq v)
    let own := { (s.tokAt i).seen b now with extCache := some v, seenInHw := true }
    ∃ u : State,
      (∀ j, j < s.numSlots →
        let tok := if j = i then own else s.tokAt j
        u.slotAt j = { s.slotAt j with
          tok := if j ∈ L then { tok with armedTime := now, tmoDur := s.params.cfg.quickTimeout (s.tokAt i).cls, oooMissing := true }
            else tok })
      ∧ u.numSlots = s.numSlots
      ∧ u = { s with slots := u.slots, stats := { s.stats.changed with ooo := s.stats.ooo + 1 } }
      ∧ s.PollGoesOn u i now [.statusChanged i b]
      ∧ (now < (u.tokAt i).armedTime + (u.tokAt i).tmoDur → exec (.poll i now) s = .next { u with
          lastNow := now, resp := Response.ofToken false .notComplete [.statusChanged i b] })

/-- OOO under policy QUICK without a timeout: the commands the sequence search finds are written again as they
stand, in its order, unless the device is DEAD; timers stay and no other address of memory changes (R360, R383,
R387).  The POLL goes on to the steps after the decode; with no deadline of the polled token passed it answers
NOT_COMPLETE.
Rests on the spec's own choices D10, D20, D34, D35, D39. -/
def Obligations.OutOfOrderReplaysAtOnce : Prop :=
  ∀ (s : State) (i now : Nat) (b : Byte), s.FreshCode i now b .ooo →
    (s.tokAt i).cls ≠ .control → s.params.layout.stExtend b = true → s.params.cfg.oooPolicy = .quick →
    s.params.cfg.quickTimeout (s.tokAt i).cls = 0 →
    let v := s.readExt i
    let L := if s.run = .dead then [] else s.seqSearch (s.params.layout.extMissSeq v)
    let own := { (s.tokAt i).seen b now with extCache := some v, seenInHw := true }
    let evs := Event.statusChanged i b :: L.map (fun j => Event.rewrite j .oooImmediate)
    ∃ u : State,
      (∀ j, j < s.numSlots →
        let tok := if j = i then own else s.tokAt j
        u.slotAt j = { s.slotAt j with tok := if j ∈ L then { tok with issueTime := now } else tok })
      ∧ u.numSlots = s.numSlots
      ∧ (∀ a, (∀ j ∈ L, ¬ s.inCmdSlot j a) → u.mem.read a = s.mem.read a)
      ∧ (∀ j ∈ L, ∀ k, k < 64 → u.mem.read (s.params.cmdBase + 64 * j + k) = ((s.tokAt j).wire.bytes)[k]?)
      ∧ u = { s with
              slots := u.slots, mem := u.mem, submitted := s.submitted ++ L.map (fun j => (j, (s.tokAt j).wire)),
              stats := { s.stats.changed with ooo := s.stats.ooo + 1, oooReplay := s.stats.oooReplay + L.length } }
      ∧ s.PollGoesOn u i now evs
      ∧ (now < (u.tokAt i).armedTime + (u.tokAt i).tmoDur → exec (.poll i now) s = .next { u with
          lastNow := now, resp := Response.ofToken false .notComplete evs })

/-- The sequence search: the active tokens with the number, front to back; none, the first alone, or, when the
first has a buddy, the first two (R385).
Rests on the spec's own choices D35. -/
def Obligations.SequenceSearch : Prop :=
  ∀ (s : State) (m : BitVec 32),
    let L := s.active.filter fun j => decide ((s.tokAt j).hasSeq = true ∧ (s.tokAt j).seq = m)
    (L = [] → s.seqSearch m = [])
    ∧ (∀ j rest, L = j :: rest → (s.tokAt j).buddy = none → s.seqSearch m = [j])
    ∧ (∀ j k rest, L = j :: k :: rest → (s.tokAt j).buddy ≠ none → s.seqSearch m = [j, k])
    ∧ (∀ j, L = [j] → s.seqSearch m = [j])

/-- A command that shows no status update for longer than the threshold, with budget left, is written again as it stands:
its slot's 64 bytes, its issue time, the two counts and the event, and nothing else; a DEAD device re-writes nothing
(R360, R362, R387).  The same POLL then goes on to the timeout check as a POLL of the state the re-write left, in which
no further re-write is due; with no deadline passed it answers NOT_COMPLETE (R362, R370).
Rests on the spec's own choices D20, D27, D39. -/
def Obligations.LostCommandIsRewritten : Prop :=
  ∀ (s : State) (i now : Nat), s.Accepts i now → s.Polling i → s.Unchanged i →
    s.params.cfg.lostThresh ≠ 0 → (∀ u, (s.tokAt i).touchedTime = some u → u < (s.tokAt i).issueTime) →
    s.params.cfg.lostThresh < now - (s.tokAt i).issueTime → (s.tokAt i).lostRefreshes < s.params.cfg.lostMax →
    s.run ≠ .dead →
    let W := (s.tokAt i).wire
    let u := { s with
      slots := s.slots.modify i (fun sl => { sl with tok :=
        { sl.tok with issueTime := now, lostRefreshes := sl.tok.lostRefreshes + 1 } }),
      mem := s.mem.writeBytes (s.params.cmdBase + 64 * i) W.bytes, submitted := s.submitted ++ [(i, W)],
      stats := { s.stats with lostRefresh := s.stats.lostRefresh + 1 } }
    s.WroteSlot u i W ∧ u.Accepts i now ∧ u.Polling i ∧ u.Unchanged i ∧ u.NotLost i now
    ∧ s.PollGoesOn u i now [.rewrite i .lost]
    ∧ (now < (s.tokAt i).armedTime + (s.tokAt i).tmoDur → exec (.poll i now) s = .next { u with
        lastNow := now, resp := Response.ofToken false .notComplete [.rewrite i .lost] })

/-- A deadline that has passed: without a refresh of the token's type since it was armed it is a false timeout,
counted and nothing else (R370, R372); a queued read under buffer tracking with attempts left asks for recovery
and is re-armed (R373).
Rests on the spec's own choices D26, D38. -/
def Obligations.TimeoutGuardAndRecovery : Prop :=
  ∀ (s : State) (i now : Nat), s.Accepts i now → s.Polling i → s.Unchanged i → s.NotLost i now →
    (s.tokAt i).armedTime + (s.tokAt i).tmoDur ≤ now →
    let c := s.params.cfg
    let refreshed := if i < s.numSlots - s.params.r then s.refreshGeneral else s.refreshReserved
    let starved := ∀ r, refreshed = some r → r < (s.tokAt i).armedTime
    let recovers := c.rdbufTracking = true ∧ (s.tokAt i).cls = .read ∧ (s.tokAt i).stage = .queued
      ∧ (s.tokAt i).rdbufRecover < c.rdbufRecoverMax
    (starved → exec (.poll i now) s = .next { s with
      lastNow := now, stats := { s.stats with falseTimeout := s.stats.falseTimeout + 1 },
      resp := Response.ofToken false .notComplete [] })
    ∧ (¬ starved → recovers → exec (.poll i now) s = .next (s.pending i now
      { s.tokAt i with armedTime := now, tmoDur := c.tmoRead.queued, rdbufRecover := (s.tokAt i).rdbufRecover + 1 } s.stats
      [.recoverRdBufs i]))

/-- A deadline that has passed on a token marked missing or for delayed replay, past the guard and the recovery
variant and not DEAD, is an expected timeout: the command is written again, the mark cleared and a deadline armed, for a missing token the
class's entry of `cfg.ooo_quick` (10_state.md R60), for a delayed one that of `cfg.tmo` for its stage (R361);
otherwise it is a real timeout: TIMEOUT, counted, logged unless the token is quiet, and the pending deallocation
cleared when the configuration says so (R371, R375-R377, R387).
Rests on the spec's own choices D20, D33, D34, D38, D39. -/
def Obligations.TimeoutReplayAndFailure : Prop :=
  ∀ (s : State) (i now r : Nat), s.Accepts i now → s.Polling i → s.Unchanged i → s.NotLost i now →
    (s.tokAt i).armedTime + (s.tokAt i).tmoDur ≤ now →
    (if i < s.numSlots - s.params.r then s.refreshGeneral else s.refreshReserved) = some r → (s.tokAt i).armedTime ≤ r →
    let c := s.params.cfg
    ¬ (c.rdbufTracking = true ∧ (s.tokAt i).cls = .read ∧ (s.tokAt i).stage = .queued
      ∧ (s.tokAt i).rdbufRecover < c.rdbufRecoverMax) →
    let t := s.tokAt i
    let marked := t.oooMissing = true ∨ t.oooReplay = true
    let again (tok : Token) := { s.pending i now tok { s.stats with oooReplay := s.stats.oooReplay + 1 } [.rewrite i .oooTimeout] with
      mem := s.mem.writeBytes (s.params.cmdBase + 64 * i) t.wire.bytes, submitted := s.submitted ++ [(i, t.wire)] }
    (s.run ≠ .dead → t.oooMissing = true →
      exec (.poll i now) s = .next (again { t with issueTime := now, armedTime := now, tmoDur := c.quickTimeout t.cls, oooMissing := false }))
    ∧ (s.run ≠ .dead → t.oooMissing = false → t.oooReplay = true →
      exec (.poll i now) s = .next (again { t with issueTime := now, armedTime := now, tmoDur := (c.timeouts t.cls).entry t.stage, oooReplay := false }))
    ∧ (s.run = .dead ∨ ¬ marked →
      exec (.poll i now) s = .next (s.concluded i now
        { t with
          timeouts := t.timeouts + 1, result := .timeout, why := some .timeout,
          dealloc := if c.rdbufTracking = true ∧ c.noRetryTmoDealloc = true then none else t.dealloc }
        (s.slotAt i).ctr { s.stats with timeout := s.stats.timeout + 1 }
        (if t.quiet = true then [] else [.log .warn i .timeout none])))

/-- A write of a command slot reads back byte by byte, word `j` least significant byte first from offset `8 j`,
and every other address reads as before (20_memory.md R81, R83, R85).
Rests on the spec's own choices D4, D42, D43. -/
def Obligations.CommandWriteReadsBack : Prop :=
  ∀ (s : State) (i : Nat) (W : CmdWord),
    (∀ j k, j < 8 → k < 8 →
      (s.writeCmd i W).mem.read (s.params.cmdBase + 64 * i + 8 * j + k) = some ((W.get j).extractLsb' (8 * k) 8))
    ∧ ∀ a, ¬ s.inCmdSlot i a → (s.writeCmd i W).mem.read a = s.mem.read a
end

