-- ==== Sys2Proof/Laws/Bits.lean ====
section
/-! SUPPORT. Bit by bit: what the bit-field helpers of Decode.lean read and write, and from it every bit of the
word `finalize` leaves and of the word `build` starts from. -/

namespace Sys2Proof

/-- A mask of `w` ones. -/
theorem getLsbD_lowMask (w i : Nat) : (lowMask w).getLsbD i = (decide (i < 64) && decide (i < w)) := by
  have h : lowMask w = BitVec.ofNat 64 (2 ^ w - 1) := by
    apply BitVec.eq_of_toNat_eq
    have one : (1 : Word).toNat = 1 := rfl
    simp only [lowMask, BitVec.toNat_sub, BitVec.toNat_shiftLeft, BitVec.toNat_ofNat, Nat.shiftLeft_eq, one, one_mul]
    rcases Nat.lt_or_ge w 64 with h | h
    · have h1 : 2 ^ w < 2 ^ 64 := Nat.pow_lt_pow_right (by omega) h
      have h2 : 0 < 2 ^ w := Nat.two_pow_pos w
      rw [Nat.mod_eq_of_lt h1]
      generalize 2 ^ w = x at *
      omega
    · obtain ⟨k, rfl⟩ := Nat.exists_eq_add_of_le h
      have h2 : 0 < 2 ^ k := Nat.two_pow_pos k
      rw [Nat.pow_add, Nat.mul_mod_right]
      generalize 2 ^ k = x at *
      omega
  rw [h, BitVec.getLsbD_ofNat, Nat.testBit_two_pow_sub_one]

/-- A bit of a word with a field replaced. -/
theorem getLsbD_insertBits (x v : Word) (lo w i : Nat) :
    (insertBits x lo w v).getLsbD i =
      if lo ≤ i ∧ i < lo + w then decide (i < 64) && v.getLsbD (i - lo) else x.getLsbD i := by
  unfold insertBits
  simp only [BitVec.getLsbD_or, BitVec.getLsbD_and, BitVec.getLsbD_not, BitVec.getLsbD_shiftLeft, getLsbD_lowMask]
  by_cases h : i < 64
  · by_cases h1 : i < lo
    · have : ¬ (lo ≤ i ∧ i < lo + w) := by omega
      simp [h, h1, this]
    · by_cases h2 : i < lo + w
      · have e1 : i - lo < 64 := by omega
        have e2 : i - lo < w := by omega
        simp [h, h1, e1, e2, h2, show lo ≤ i by omega]
      · have e2 : ¬ i - lo < w := by omega
        simp [h, h1, e2, h2]
  · have e : x.getLsbD i = false := BitVec.getLsbD_of_ge x i (by omega)
    simp [h, e]

/-- A bit of a field read. -/
theorem getLsbD_getField (W : CmdWord) (f : Field) (i : Nat) :
    (W.getField f).getLsbD i = (decide (i < 64) && decide (i < f.width) && (W.get f.word).getLsbD (f.lo + i)) := by
  simp only [CmdWord.getField, BitVec.getLsbD_and, BitVec.getLsbD_ushiftRight, getLsbD_lowMask]
  cases (W.get f.word).getLsbD (f.lo + i) <;> simp

/-- Reading a whole field of a word as a bit vector of its width. -/
theorem getField_setWidth (W : CmdWord) (f : Field) (h : f.lo + f.width ≤ 64) :
    (W.getField f).setWidth f.width = (W.get f.word).extractLsb' f.lo f.width := by
  ext i hi
  rw [← BitVec.getLsbD_eq_getElem, ← BitVec.getLsbD_eq_getElem, BitVec.getLsbD_setWidth, getLsbD_getField,
    BitVec.getLsbD_extractLsb']
  simp [hi, show i < 64 by omega]

/-- A bit of a field placed in an empty word. -/
theorem getLsbD_place (lo w i : Nat) (v : Word) :
    (insertBits 0 lo w v).getLsbD i = (decide (lo ≤ i ∧ i < lo + w) && (decide (i < 64) && v.getLsbD (i - lo))) := by
  rw [getLsbD_insertBits]
  by_cases h : lo ≤ i ∧ i < lo + w
  · simp [h]
  · simp [h]

/-- The header word of the reference layout (30_encoding.md R112, R116). -/
theorem placeWord_reference0 (p : Parts) :
    placeWord 0 (p.fields Layout.reference) =
      (0 : BitVec 1) ++ p.stamp.dealloc.getD 0 ++ BitVec.ofBool p.stamp.dealloc.isSome ++ p.stamp.odd ++ p.hdr.msize ++ p.hdr.dsize
        ++ p.hdr.dupChk ++ p.hdr.hwOnly ++ p.hdr.dir ++ p.stamp.seq ++ p.stamp.slot ++ p.opc := by
  have f : ∀ c : Bool, (if c = true then (1 : Word) else 0) = (BitVec.ofBool c).setWidth 64 := by decide
  have z : ∀ k, (0 : Word).getLsbD k = false := fun k => BitVec.getLsbD_zero
  simp only [placeWord, Parts.fields, Layout.reference, Layout.polarityFields, polarityField, List.cons_append,
    List.nil_append, List.map_cons, List.map_nil, if_true, OfNat.ofNat_ne_zero, one_ne_zero, if_false, f]
  apply BitVec.eq_of_getLsbD_eq
  intro i hi
  simp only [BitVec.getLsbD_or, getLsbD_place, BitVec.getLsbD_append, BitVec.getLsbD_setWidth, z, Bool.or_false]
  rcases (show i < 8 ∨ (8 ≤ i ∧ i < 16) ∨ (16 ≤ i ∧ i < 48) ∨ (48 ≤ i ∧ i < 50) ∨ i = 50 ∨ i = 51 ∨ (52 ≤ i ∧ i < 54) ∨ (54 ≤ i ∧ i < 56)
     ∨ i = 56 ∨ i = 57 ∨ (58 ≤ i ∧ i < 63) ∨ i = 63 by omega) with h | h | h | h | h | h | h | h | h | h | h | h
  all_goals first
    | (subst h; simp)
    | (simp (disch := omega) only [decide_eq_true, decide_eq_false, Bool.true_and, Bool.false_and, Bool.or_false,
        Bool.false_or, if_pos, if_neg, Nat.sub_sub, Nat.sub_zero])

/-- A word of the reference layout that holds one 56-bit field and a polarity bit (R113, R114, R116). -/
theorem place_field56 (v : BitVec 56) (odd : BitVec 1) :
    insertBits 0 0 56 (v.setWidth 64) ||| (insertBits 0 56 1 (odd.setWidth 64) ||| 0) = (0 : BitVec 7) ++ odd ++ v := by
  have z : ∀ k, (0 : Word).getLsbD k = false := fun k => BitVec.getLsbD_zero
  apply BitVec.eq_of_getLsbD_eq
  intro i hi
  simp only [BitVec.getLsbD_or, getLsbD_place, BitVec.getLsbD_append, BitVec.getLsbD_setWidth, z, Bool.or_false]
  rcases (show i < 56 ∨ i = 56 ∨ 57 ≤ i by omega) with h | h | h
  all_goals first
    | (subst h; simp)
    | (simp (disch := omega) only [decide_eq_true, decide_eq_false, Bool.true_and, Bool.false_and, Bool.or_false,
        if_pos, if_neg, Nat.sub_sub, Nat.sub_zero] <;> simp)

/-- A word of the reference layout that is one field (R115). -/
theorem place_field64 (v : Word) : insertBits 0 0 64 v ||| 0 = v := by
  apply BitVec.eq_of_getLsbD_eq
  intro i hi
  simp only [BitVec.getLsbD_or, getLsbD_place]
  simp [hi]

/-- The words of the reference layout, bit by bit: the protected words, then their duplicates when `DUPCHK = 1`
and the auxiliary words otherwise, then the checksum (30_encoding.md R112-R116). -/
theorem joinParts_reference (p : Parts) :
    joinParts Layout.reference p =
      let st := p.stamp
      let w0 : Word := (0 : BitVec 1) ++ st.dealloc.getD 0 ++ BitVec.ofBool st.dealloc.isSome ++ st.odd ++ p.hdr.msize
        ++ p.hdr.dsize ++ p.hdr.dupChk ++ p.hdr.hwOnly ++ p.hdr.dir ++ st.seq ++ st.slot ++ p.opc
      let w1 : Word := (0 : BitVec 7) ++ st.odd ++ p.src
      let w2 : Word := (0 : BitVec 7) ++ st.odd ++ p.dst
      let msbs : BitVec 2 := st.xsum.extractLsb' 127 1 ++ st.xsum.extractLsb' 63 1
      { w0, w1, w2
        w3 := if p.hdr.dupChk = 1 then w0 else (0 : BitVec 7) ++ st.odd ++ p.aux0
        w4 := if p.hdr.dupChk = 1 then w1 else (0 : BitVec 7) ++ st.odd ++ p.aux1
        w5 := msbs ++ (if p.hdr.dupChk = 1 then w2 else (0 : BitVec 7) ++ st.odd ++ p.aux2).extractLsb' 0 62
        w6 := st.xsum.extractLsb' 0 64
        w7 := st.xsum.extractLsb' 64 64 } := by
  have h0 := placeWord_reference0 p
  have one (j : Nat) (v : BitVec 56) (h : placeWord j (p.fields Layout.reference)
      = insertBits 0 0 56 (v.setWidth 64) ||| (insertBits 0 56 1 (p.stamp.odd.setWidth 64) ||| 0)) :
      placeWord j (p.fields Layout.reference) = (0 : BitVec 7) ++ p.stamp.odd ++ v := h.trans (place_field56 v _)
  have h1 := one 1 p.src rfl
  have h2 := one 2 p.dst rfl
  have h3 := one 3 p.aux0 rfl
  have h4 := one 4 p.aux1 rfl
  have h5 := one 5 p.aux2 rfl
  have h6 : placeWord 6 (p.fields Layout.reference) = p.stamp.xsum.extractLsb' 0 64 := place_field64 _
  have h7 : placeWord 7 (p.fields Layout.reference) = p.stamp.xsum.extractLsb' 64 64 := place_field64 _
  simp only [joinParts, placeFields, h0, h1, h2, h3, h4, h5, h6, h7]
  split <;> rfl

/-- The codes of the reference layout are those of the tables (30_encoding.md R131, R142, R149). -/
theorem Layout.reference_opcode (o : Opcode) : Layout.reference.opcode o = o.code := by cases o <;> rfl

end Sys2Proof

namespace Sys2Proof.Machine

open Sys2Proof

/-- Every bit of the word `finalize` leaves (40_cmdgen.md R225-R231). -/
theorem finalize_bits (W : CmdWord) (odd : BitVec 1) (slot : Byte) (seq : BitVec 32) (dealloc : Option (BitVec 5))
    (x : BitVec 128) (i : Nat) :
    let V := finalize Layout.reference W odd slot seq dealloc x
    let dup := W.w0.getLsbD 51 = true
    let msb (b : Bool) := if i = 62 then x.getLsbD 63 else if i = 63 then x.getLsbD 127 else b
    V.w0.getLsbD i =
      (if i = 56 then odd.getLsbD 0 else if 8 ≤ i ∧ i < 16 then slot.getLsbD (i - 8)
        else if 16 ≤ i ∧ i < 48 then seq.getLsbD (i - 16) else if i = 57 then dealloc.isSome
        else if 58 ≤ i ∧ i < 63 then (dealloc.getD 0).getLsbD (i - 58) else W.w0.getLsbD i)
    ∧ V.w1.getLsbD i = (if i = 56 then odd.getLsbD 0 else W.w1.getLsbD i)
    ∧ V.w2.getLsbD i = (if i = 56 then odd.getLsbD 0 else W.w2.getLsbD i)
    ∧ V.w3.getLsbD i = (if dup then V.w0.getLsbD i else if i = 56 then odd.getLsbD 0 else W.w3.getLsbD i)
    ∧ V.w4.getLsbD i = (if dup then V.w1.getLsbD i else if i = 56 then odd.getLsbD 0 else W.w4.getLsbD i)
    ∧ V.w5.getLsbD i = msb (if dup then V.w2.getLsbD i else if i = 56 then odd.getLsbD 0 else W.w5.getLsbD i)
    ∧ V.w6 = x.extractLsb' 0 64 ∧ V.w7 = x.extractLsb' 64 64 := by
  obtain ⟨w0, w1, w2, w3, w4, w5, w6, w7⟩ := W
  have hdup : ∀ w : Word, ((w >>> 51) &&& lowMask 1 = 1) ↔ w.getLsbD 51 = true := by
    intro w
    have h1 : ∀ k, ((w >>> 51) &&& lowMask 1).getLsbD k = (decide (k = 0) && w.getLsbD 51) := by
      intro k
      rw [BitVec.getLsbD_and, BitVec.getLsbD_ushiftRight, getLsbD_lowMask]
      by_cases hk : k = 0
      · subst hk; simp
      · simp [hk]
    constructor
    · intro h; have := h1 0; rw [h] at this; simpa using this.symm
    · intro h; apply BitVec.eq_of_getLsbD_eq; intro k hk; rw [h1]
      by_cases hk : k = 0 
      · subst hk; simp [h]
      · simp [hk]
  cases dealloc <;>
  simp only [finalize, Layout.reference, CmdWord.setField, CmdWord.getField, CmdWord.get, CmdWord.set, setMsb, polarityField,
    List.foldl] <;> split <;> rename_i hd
  all_goals
    simp only [hdup, getLsbD_insertBits] at hd
    simp (disch := omega) only [if_neg] at hd
    simp only [hd, if_true, if_false, Bool.false_eq_true, getLsbD_insertBits, BitVec.getLsbD_setWidth, Option.isSome, Option.getD]
    refine ⟨?_, ?_, ?_, ?_, ?_, ?_, ?_, ?_⟩
  all_goals first
    | (apply BitVec.eq_of_getLsbD_eq; intro k hk
       simp (disch := omega) only [getLsbD_insertBits, BitVec.getLsbD_extractLsb', if_pos, decide_eq_true, Bool.true_and, Nat.sub_zero])
    | (rcases Nat.lt_or_ge i 64 with hi | hi
       · rcases (show i < 8 ∨ (8 ≤ i ∧ i < 16) ∨ (16 ≤ i ∧ i < 48) ∨ (48 ≤ i ∧ i < 56) ∨ i = 56 ∨ i = 57 ∨ (58 ≤ i ∧ i < 62) ∨ i = 62 ∨ i = 63 by omega) with h | h | h | h | h | h | h | h | h <;> 
          first
          | (subst h; simp)
          | (simp (disch := omega) only [if_pos, if_neg, decide_eq_true, Bool.true_and] <;> simp)
       · simp (disch := omega) only [if_neg, BitVec.getLsbD_of_ge])

end Sys2Proof.Machine
end

