-- ==== Sys2Proof/Laws/Claims.lean ====
section
/-! SUPPORT. The words of the statements (Safety.lean) beside the machine's functions: one lemma each, by which a proof
goes from one to the other. -/

namespace Sys2Proof

/-- `cfg.tmo[cls][g]` is the entry the rules name (10_state.md R61, 43_timeout_ooo.md R361). -/
theorem Cfg.tmo_eq (c : Cfg) (cls : Class) (g : Stage) : c.tmo cls g = (c.timeouts cls).entry g := by
  cases cls <;> cases g <;> rfl

/-- `cfg.ooo_quick[cls]` is the entry the rules name (10_state.md R60). -/
theorem Cfg.oooQuick_eq (c : Cfg) (cls : Class) : c.oooQuick cls = c.quickTimeout cls := by cases cls <;> rfl

/-- The stage order of early commit, for the three stages a progress code names (42_status_decoder.md R302). -/
theorem CommitStage.reached_iff (c : CommitStage) (g : Stage) (h : g ≠ .issued) :
    c.reached g = true ↔ (c = .queued ∨ c = .received ∧ g ≠ .queued ∨ c = .waitDev ∧ g = .waitDev) := by
  cases c <;> cases g <;> simp_all [CommitStage.reached, Stage.rank]

/-- The sequence counts of R197. -/
theorem seqCountOk_iff (n : BitVec 56) : seqCountOk n = true ↔ n ≠ 0 ∧ n.toNat < 2 ^ 32 := by
  simp [seqCountOk]

/-- `DST` of a read, bit by bit (40_cmdgen.md R176). -/
theorem packRead_eq (n b : Byte) : packRead n b = b.setWidth 56 ||| n.setWidth 56 <<< 8 := by
  apply BitVec.eq_of_getLsbD_eq
  intro i hi
  simp only [packRead, BitVec.getLsbD_append, BitVec.getLsbD_or, BitVec.getLsbD_setWidth, BitVec.getLsbD_shiftLeft]
  rcases Nat.lt_or_ge i 8 with h | h
  · simp [h, hi]
  · have e : b.getLsbD i = false := BitVec.getLsbD_of_ge b i h
    have h' : ¬ i < 8 := by omega
    rcases Nat.lt_or_ge (i - 8) 8 with k | k
    · simp [h', e, k, hi]; omega
    · have e' : n.getLsbD (i - 8) = false := BitVec.getLsbD_of_ge n _ k
      have k' : ¬ i - 8 < 8 := by omega
      simp [h', e, e', k']

/-- `SRC` of a write, bit by bit (40_cmdgen.md R181). -/
theorem packWrite_eq (b0 n b1 b2 : Byte) :
    packWrite b0 n b1 b2 = b0.setWidth 56 ||| n.setWidth 56 <<< 8 ||| b1.setWidth 56 <<< 16 ||| b2.setWidth 56 <<< 24 := by
  apply BitVec.eq_of_getLsbD_eq
  intro i hi
  simp only [packWrite, BitVec.getLsbD_append, BitVec.getLsbD_or, BitVec.getLsbD_setWidth, BitVec.getLsbD_shiftLeft]
  interval_cases i <;> simp

end Sys2Proof

namespace Sys2Proof.Machine

open Sys2Proof

/-- `stage_tmo(j)` is the entry the rules name (43_timeout_ooo.md R361). -/
theorem State.stageTmo_eq (s : State) (j : Nat) :
    s.stageTmo j = (s.params.cfg.timeouts (s.tokAt j).cls).entry (s.tokAt j).stage := Cfg.tmo_eq _ _ _

/-- The deadline has not elapsed (43_timeout_ooo.md R370). -/
theorem Token.elapsed_eq_false (t : Token) (now : Nat) : t.elapsed now = false ↔ now < t.armedTime + t.tmoDur := by
  simp [Token.elapsed]

/-- The deadline has elapsed (R370). -/
theorem Token.elapsed_eq_true (t : Token) (now : Nat) : t.elapsed now = true ↔ t.armedTime + t.tmoDur ≤ now := by
  simp [Token.elapsed]

/-- No re-write is due exactly where `lost_check` finds none (43_timeout_ooo.md R362, R387). -/
theorem State.notLost_iff (s : State) (i now : Nat) :
    s.NotLost i now ↔ (s.tokAt i).looksLost s.params.cfg now = false ∨ s.run = .dead := by
  simp only [State.NotLost, Token.looksLost]
  by_cases hr : s.run = .dead
  · simp [hr]
  · cases (s.tokAt i).touchedTime <;> simp [hr] <;> omega

/-- The filter of a parameter record (00_scope.md R10). -/
theorem State.filterAllows_eq (s : State) (W : CmdWord) : s.filterAllows W = s.filterPasses W := by
  simp only [State.filterAllows, State.filterPasses]
  cases s.params.filter <;> simp

/-- `check_form` finds the two forms of R201. -/
theorem checkForm_iff (cdb : List Byte) : checkForm cdb = true ↔ PassthroughForm cdb := by
  simp [checkForm, PassthroughForm]

/-- A number with a byte put below it. -/
theorem toNat_append_byte {w : Nat} (x : BitVec w) (b : Byte) : (x ++ b).toNat = b.toNat + 256 * x.toNat := by
  rw [BitVec.toNat_append, ← Nat.shiftLeft_add_eq_or_of_lt b.isLt, Nat.shiftLeft_eq]
  omega

/-- The first of seven bytes lowest (40_cmdgen.md R204). -/
theorem toNat_sevenBytes (b : Nat → Byte) : (sevenBytes b).toNat = bytesLE ((List.range 7).map b) := by
  simp only [sevenBytes, List.range, List.range.loop, List.map, bytesLE, toNat_append_byte]
  omega

/-- The first `n` bytes of a list, with bytes 0 past its end, make the number its first `n` bytes make. -/
theorem bytesLE_take (n : Nat) (l : List Byte) : bytesLE (l.take n) = bytesLE ((List.range n).map fun k => l.getD k 0) := by
  induction n generalizing l with
  | zero => rfl
  | succ n ih =>
    rw [List.range_succ_eq_map, List.map_cons, List.map_map]
    cases l with
    | nil =>
      have e := ih []
      simp only [List.take_nil, List.getD_nil, bytesLE] at e
      simp only [List.take_nil, bytesLE, List.getD_nil, Function.comp_def, ← e]
      rfl
    | cons b l =>
      simp only [List.take_succ_cons, bytesLE, ih l, List.getD_cons_zero, Function.comp_def, Nat.succ_eq_add_one,
        List.getD_cons_succ]

/-- The sub-fields of R204: seven bytes, seven and two of the command followed by zero bytes. -/
theorem embed_eq (cdb : List Byte) :
    embedAux0 cdb = sevenBytes (fun k => cdb.getD k 0) ∧ embedAux1 cdb = sevenBytes (fun k => cdb.getD (7 + k) 0)
      ∧ embedAux2 cdb = (cdb.getD 15 0 ++ cdb.getD 14 0).setWidth 56 := by
  have d : ∀ m k, (cdb.drop m).getD k 0 = cdb.getD (m + k) 0 := fun m k => by simp [List.getD_eq_getElem?_getD]
  refine ⟨?_, ?_, ?_⟩
  · rw [embedAux0, bytesLE_take, ← toNat_sevenBytes, BitVec.ofNat_toNat, BitVec.setWidth_eq]
  · rw [embedAux1, bytesLE_take, ← toNat_sevenBytes, BitVec.ofNat_toNat, BitVec.setWidth_eq]
    simp only [d]
  · apply BitVec.eq_of_toNat_eq
    rw [embedAux2, bytesLE_take]
    simp only [d, BitVec.toNat_ofNat, BitVec.toNat_setWidth, toNat_append_byte, List.range, List.range.loop, List.map, bytesLE,
      Nat.add_zero, Nat.mul_zero]

/-- Class and device-directedness from the row of the opcode (41_token_pool.md R246). -/
theorem wordClass_eq {L : Layout} {W : CmdWord} {o : Opcode} (h : L.opcodeIn W = some o) :
    wordClass L W = o.cls ∧ wordDevdir L W = o.devdir := by
  simp [wordClass, wordDevdir, h]

end Sys2Proof.Machine
end

