-- ==== Sys2Proof/Laws/Encoder.lean ====
section
/-! SUPPORT. The word `build` starts from, as the rules of 40_cmdgen.md write it, and what the two encoder
operations answer. -/

namespace Sys2Proof.Machine

open Sys2Proof

/-- A bit of the header word of 40_cmdgen.md R172. -/
theorem getLsbD_hdrWord (opc : Byte) (dir : BitVec 2) (hwOnly : BitVec 1) (dup : Bool) (dsz msize : BitVec 2) (i : Nat)
    (hi : i < 64) :
    (hdrWord opc dir hwOnly dup dsz msize).getLsbD i =
      (if i < 8 then opc.getLsbD i else if 48 ≤ i ∧ i < 50 then dir.getLsbD (i - 48) else if i = 50 then hwOnly.getLsbD 0
        else if i = 51 then dup else if 52 ≤ i ∧ i < 54 then dsz.getLsbD (i - 52)
        else if 54 ≤ i ∧ i < 56 then msize.getLsbD (i - 54) else false) := by
  have e : ∀ {w : Nat} (x : BitVec w) (k : Nat), w ≤ k → x.getLsbD k = false := fun x k h => BitVec.getLsbD_of_ge x k h
  have f : (if dup then (1 : Word) else 0) = (BitVec.ofBool dup).setWidth 64 := by cases dup <;> rfl
  rw [hdrWord, f]
  simp only [BitVec.getLsbD_or, BitVec.getLsbD_shiftLeft, BitVec.getLsbD_setWidth]
  rcases (show i < 8 ∨ (8 ≤ i ∧ i < 48) ∨ (48 ≤ i ∧ i < 50) ∨ i = 50 ∨ i = 51 ∨ (52 ≤ i ∧ i < 54) ∨ (54 ≤ i ∧ i < 56)
    ∨ 56 ≤ i by omega) with h | h | h | h | h | h | h | h
  all_goals first
    | (subst h; simp)
    | (simp (disch := omega) only [if_pos, if_neg, e, decide_eq_true, decide_eq_false, Bool.not_true, Bool.not_false,
        Bool.true_and, Bool.false_and, Bool.and_false, Bool.or_false, Bool.false_or])

/-- The word a header, SRC and DST make, in the rule's own expression (40_cmdgen.md R172, 30_encoding.md R113). -/
theorem builtWord_eq (req : BuildReq) (o : Opcode) (dir : Dir) (dsz : BitVec 2) (dup : Bool) (src dst : BitVec 56) :
    builtWord Layout.reference req o dir dsz dup src dst =
      ⟨hdrWord o.code dir.code req.hwOnly dup dsz req.msize, src.setWidth 64, dst.setWidth 64, 0, 0, 0, 0, 0⟩ := by
  have e : ∀ {w : Nat} (x : BitVec w) (k : Nat), w ≤ k → x.getLsbD k = false := fun x k h => BitVec.getLsbD_of_ge x k h
  have z : ∀ k, (0 : Word).getLsbD k = false := fun k => BitVec.getLsbD_zero
  have f : (if dup then (1 : Word) else 0) = (BitVec.ofBool dup).setWidth 64 := by cases dup <;> rfl
  rw [builtWord, f, Layout.reference_opcode]
  simp only [Layout.reference, CmdWord.setField, CmdWord.get, CmdWord.set, CmdWord.zero, CmdWord.mk.injEq, and_true]
  refine ⟨?_, ?_, ?_⟩
  · apply BitVec.eq_of_getLsbD_eq
    intro i hi
    rw [getLsbD_hdrWord _ _ _ _ _ _ i hi]
    simp only [getLsbD_insertBits, BitVec.getLsbD_setWidth, z]
    rcases (show i < 8 ∨ (8 ≤ i ∧ i < 48) ∨ (48 ≤ i ∧ i < 50) ∨ i = 50 ∨ i = 51 ∨ (52 ≤ i ∧ i < 54) ∨ (54 ≤ i ∧ i < 56)
      ∨ 56 ≤ i by omega) with h | h | h | h | h | h | h | h
    all_goals first
      | (subst h; simp)
      | (simp (disch := omega) only [if_pos, if_neg, decide_eq_true, Bool.true_and, Nat.sub_zero])
  · apply BitVec.eq_of_getLsbD_eq
    intro i hi
    simp only [getLsbD_insertBits, BitVec.getLsbD_setWidth, z]
    rcases Nat.lt_or_ge i 56 with h | h
    · simp (disch := omega) only [if_pos, decide_eq_true, Bool.true_and, Nat.sub_zero]
    · simp (disch := omega) only [if_neg, e, Bool.and_false]
  · apply BitVec.eq_of_getLsbD_eq
    intro i hi
    simp only [getLsbD_insertBits, BitVec.getLsbD_setWidth, z]
    rcases Nat.lt_or_ge i 56 with h | h
    · simp (disch := omega) only [if_pos, decide_eq_true, Bool.true_and, Nat.sub_zero]
    · simp (disch := omega) only [if_neg, e, Bool.and_false]

/-- What `dirsize` answers for no length, and for one of the four sizes in one direction (40_cmdgen.md R173). -/
theorem dirsize_none (req : BuildReq) (need : Option Dir) (h : NoLength req) (hn : need = none ∨ need = some .none) :
    dirsize req need = .ok ⟨.none, 0, 0⟩ := by
  simp [dirsize, h.1, h.2, hn]

/-- The four size codes (30_encoding.md R120). -/
theorem sizeCode_lenOf (z : BitVec 2) : sizeCode (lenOf z) = some z := by revert z; decide

/-- A valid length is not 0. -/
theorem lenOf_ne_zero (z : BitVec 2) : lenOf z ≠ 0 := by revert z; decide

/-- `dirsize` of a device-to-host transfer (40_cmdgen.md R173). -/
theorem dirsize_d2h (req : BuildReq) (need : Option Dir) (z : BitVec 2) (h : req.h2dLen = 0) (hd : req.d2hLen = lenOf z)
    (hn : need = none ∨ need = some .d2h) : dirsize req need = .ok ⟨.d2h, z, lenOf z⟩ := by
  simp [dirsize, h, hd, hn, lenOf_ne_zero, sizeCode_lenOf]

/-- `dirsize` of a host-to-device transfer (40_cmdgen.md R173). -/
theorem dirsize_h2d (req : BuildReq) (need : Option Dir) (z : BitVec 2) (h : req.d2hLen = 0) (hd : req.h2dLen = lenOf z)
    (hn : need = none ∨ need = some .h2d) : dirsize req need = .ok ⟨.h2d, z, lenOf z⟩ := by
  simp [dirsize, h, hd, hn, lenOf_ne_zero, sizeCode_lenOf]

/-- ENC_BUILD answers what `build` answers, and changes nothing (40_cmdgen.md R171). -/
theorem execEncBuild_eq (s : State) (req : BuildReq) :
    execEncBuild req s = .next (s.answered
      (match buildWord s.params.layout s.params.cfg req with
      | .error e => Response.error e
      | .ok W => Response.ofWord W)) := by
  rw [execEncBuild]
  cases buildWord s.params.layout s.params.cfg req <;> rfl

/-- A command runs the encoder on its operands and changes nothing (40_cmdgen.md section 0, R171, R225). -/
theorem State.encodeCommand_eq (s : State) (h : CmdHdr) (st : Stamp) (req : BuildReq) :
    s.encodeCommand h st req = .next (s.answered
      (match buildWord s.params.layout s.params.cfg (req.withHdr h) with
      | .error e => Response.error e
      | .ok W => Response.ofWord (finalize s.params.layout W st.odd st.slot st.seq st.dealloc st.xsum))) := by
  rw [State.encodeCommand]
  cases buildWord s.params.layout s.params.cfg (req.withHdr h) <;> rfl

end Sys2Proof.Machine
end

