-- ==== Sys2Proof/Laws/State.lean ====
section
/-! SUPPORT. One lemma per field of the state per named update, and the slot table read after each of them. -/

namespace Sys2Proof.Machine

open Sys2Proof

/-! `begin` -/
@[simp] theorem State.begin_slots (s : State) : (s.begin).slots = s.slots := rfl
@[simp] theorem State.begin_seqNext (s : State) : (s.begin).seqNext = s.seqNext := rfl
@[simp] theorem State.begin_run (s : State) : (s.begin).run = s.run := rfl
@[simp] theorem State.begin_refreshGeneral (s : State) : (s.begin).refreshGeneral = s.refreshGeneral := rfl
@[simp] theorem State.begin_refreshReserved (s : State) : (s.begin).refreshReserved = s.refreshReserved := rfl
@[simp] theorem State.begin_active (s : State) : (s.begin).active = s.active := rfl
@[simp] theorem State.begin_lastNow (s : State) : (s.begin).lastNow = s.lastNow := rfl
@[simp] theorem State.begin_stats (s : State) : (s.begin).stats = s.stats := rfl
@[simp] theorem State.begin_unspecSeen (s : State) : (s.begin).unspecSeen = s.unspecSeen := rfl
@[simp] theorem State.begin_params (s : State) : (s.begin).params = s.params := rfl
@[simp] theorem State.begin_mem (s : State) : (s.begin).mem = s.mem := rfl
@[simp] theorem State.begin_submitted (s : State) : (s.begin).submitted = s.submitted := rfl
@[simp] theorem State.begin_resp (s : State) : (s.begin).resp = Response.empty := rfl
@[simp] theorem State.begin_inputs (s : State) : (s.begin).inputs = s.inputs := rfl
@[simp] theorem State.begin_draws (s : State) : (s.begin).draws = s.draws := rfl
@[simp] theorem State.begin_drawCount (s : State) : (s.begin).drawCount = s.drawCount := rfl
@[simp] theorem State.begin_slotAt (s : State) (j : Nat) : (s.begin).slotAt j = s.slotAt j := rfl
@[simp] theorem State.begin_tokAt (s : State) (j : Nat) : (s.begin).tokAt j = s.tokAt j := rfl
@[simp] theorem State.begin_numSlots (s : State) : (s.begin).numSlots = s.numSlots := rfl

/-! `emit` -/
@[simp] theorem State.emit_slots (s : State) (e : Event) : (s.emit e).slots = s.slots := rfl
@[simp] theorem State.emit_seqNext (s : State) (e : Event) : (s.emit e).seqNext = s.seqNext := rfl
@[simp] theorem State.emit_run (s : State) (e : Event) : (s.emit e).run = s.run := rfl
@[simp] theorem State.emit_refreshGeneral (s : State) (e : Event) : (s.emit e).refreshGeneral = s.refreshGeneral := rfl
@[simp] theorem State.emit_refreshReserved (s : State) (e : Event) : (s.emit e).refreshReserved = s.refreshReserved := rfl
@[simp] theorem State.emit_active (s : State) (e : Event) : (s.emit e).active = s.active := rfl
@[simp] theorem State.emit_lastNow (s : State) (e : Event) : (s.emit e).lastNow = s.lastNow := rfl
@[simp] theorem State.emit_stats (s : State) (e : Event) : (s.emit e).stats = s.stats := rfl
@[simp] theorem State.emit_unspecSeen (s : State) (e : Event) : (s.emit e).unspecSeen = s.unspecSeen := rfl
@[simp] theorem State.emit_params (s : State) (e : Event) : (s.emit e).params = s.params := rfl
@[simp] theorem State.emit_mem (s : State) (e : Event) : (s.emit e).mem = s.mem := rfl
@[simp] theorem State.emit_submitted (s : State) (e : Event) : (s.emit e).submitted = s.submitted := rfl
@[simp] theorem State.emit_resp (s : State) (e : Event) : (s.emit e).resp = { s.resp with events := s.resp.events ++ [e] } := rfl
@[simp] theorem State.emit_inputs (s : State) (e : Event) : (s.emit e).inputs = s.inputs := rfl
@[simp] theorem State.emit_draws (s : State) (e : Event) : (s.emit e).draws = s.draws := rfl
@[simp] theorem State.emit_drawCount (s : State) (e : Event) : (s.emit e).drawCount = s.drawCount := rfl
@[simp] theorem State.emit_slotAt (s : State) (e : Event) (j : Nat) : (s.emit e).slotAt j = s.slotAt j := rfl
@[simp] theorem State.emit_tokAt (s : State) (e : Event) (j : Nat) : (s.emit e).tokAt j = s.tokAt j := rfl
@[simp] theorem State.emit_numSlots (s : State) (e : Event) : (s.emit e).numSlots = s.numSlots := rfl

/-! `respond` -/
@[simp] theorem State.respond_slots (s : State) (d : Bool) (r : Result) : (s.respond d r).slots = s.slots := rfl
@[simp] theorem State.respond_seqNext (s : State) (d : Bool) (r : Result) : (s.respond d r).seqNext = s.seqNext := rfl
@[simp] theorem State.respond_run (s : State) (d : Bool) (r : Result) : (s.respond d r).run = s.run := rfl
@[simp] theorem State.respond_refreshGeneral (s : State) (d : Bool) (r : Result) : (s.respond d r).refreshGeneral = s.refreshGeneral := rfl
@[simp] theorem State.respond_refreshReserved (s : State) (d : Bool) (r : Result) : (s.respond d r).refreshReserved = s.refreshReserved := rfl
@[simp] theorem State.respond_active (s : State) (d : Bool) (r : Result) : (s.respond d r).active = s.active := rfl
@[simp] theorem State.respond_lastNow (s : State) (d : Bool) (r : Result) : (s.respond d r).lastNow = s.lastNow := rfl
@[simp] theorem State.respond_stats (s : State) (d : Bool) (r : Result) : (s.respond d r).stats = s.stats := rfl
@[simp] theorem State.respond_unspecSeen (s : State) (d : Bool) (r : Result) : (s.respond d r).unspecSeen = s.unspecSeen := rfl
@[simp] theorem State.respond_params (s : State) (d : Bool) (r : Result) : (s.respond d r).params = s.params := rfl
@[simp] theorem State.respond_mem (s : State) (d : Bool) (r : Result) : (s.respond d r).mem = s.mem := rfl
@[simp] theorem State.respond_submitted (s : State) (d : Bool) (r : Result) : (s.respond d r).submitted = s.submitted := rfl
@[simp] theorem State.respond_resp (s : State) (d : Bool) (r : Result) : (s.respond d r).resp = { s.resp with done := some d, result := some r } := rfl
@[simp] theorem State.respond_inputs (s : State) (d : Bool) (r : Result) : (s.respond d r).inputs = s.inputs := rfl
@[simp] theorem State.respond_draws (s : State) (d : Bool) (r : Result) : (s.respond d r).draws = s.draws := rfl
@[simp] theorem State.respond_drawCount (s : State) (d : Bool) (r : Result) : (s.respond d r).drawCount = s.drawCount := rfl
@[simp] theorem State.respond_slotAt (s : State) (d : Bool) (r : Result) (j : Nat) : (s.respond d r).slotAt j = s.slotAt j := rfl
@[simp] theorem State.respond_tokAt (s : State) (d : Bool) (r : Result) (j : Nat) : (s.respond d r).tokAt j = s.tokAt j := rfl
@[simp] theorem State.respond_numSlots (s : State) (d : Bool) (r : Result) : (s.respond d r).numSlots = s.numSlots := rfl

/-! `respondSlot` -/
@[simp] theorem State.respondSlot_slots (s : State) (i : Nat) : (s.respondSlot i).slots = s.slots := rfl
@[simp] theorem State.respondSlot_seqNext (s : State) (i : Nat) : (s.respondSlot i).seqNext = s.seqNext := rfl
@[simp] theorem State.respondSlot_run (s : State) (i : Nat) : (s.respondSlot i).run = s.run := rfl
@[simp] theorem State.respondSlot_refreshGeneral (s : State) (i : Nat) : (s.respondSlot i).refreshGeneral = s.refreshGeneral := rfl
@[simp] theorem State.respondSlot_refreshReserved (s : State) (i : Nat) : (s.respondSlot i).refreshReserved = s.refreshReserved := rfl
@[simp] theorem State.respondSlot_active (s : State) (i : Nat) : (s.respondSlot i).active = s.active := rfl
@[simp] theorem State.respondSlot_lastNow (s : State) (i : Nat) : (s.respondSlot i).lastNow = s.lastNow := rfl
@[simp] theorem State.respondSlot_stats (s : State) (i : Nat) : (s.respondSlot i).stats = s.stats := rfl
@[simp] theorem State.respondSlot_unspecSeen (s : State) (i : Nat) : (s.respondSlot i).unspecSeen = s.unspecSeen := rfl
@[simp] theorem State.respondSlot_params (s : State) (i : Nat) : (s.respondSlot i).params = s.params := rfl
@[simp] theorem State.respondSlot_mem (s : State) (i : Nat) : (s.respondSlot i).mem = s.mem := rfl
@[simp] theorem State.respondSlot_submitted (s : State) (i : Nat) : (s.respondSlot i).submitted = s.submitted := rfl
@[simp] theorem State.respondSlot_resp (s : State) (i : Nat) : (s.respondSlot i).resp = { s.resp with slot := some i } := rfl
@[simp] theorem State.respondSlot_inputs (s : State) (i : Nat) : (s.respondSlot i).inputs = s.inputs := rfl
@[simp] theorem State.respondSlot_draws (s : State) (i : Nat) : (s.respondSlot i).draws = s.draws := rfl
@[simp] theorem State.respondSlot_drawCount (s : State) (i : Nat) : (s.respondSlot i).drawCount = s.drawCount := rfl
@[simp] theorem State.respondSlot_slotAt (s : State) (i : Nat) (j : Nat) : (s.respondSlot i).slotAt j = s.slotAt j := rfl
@[simp] theorem State.respondSlot_tokAt (s : State) (i : Nat) (j : Nat) : (s.respondSlot i).tokAt j = s.tokAt j := rfl
@[simp] theorem State.respondSlot_numSlots (s : State) (i : Nat) : (s.respondSlot i).numSlots = s.numSlots := rfl

/-! `respondWord` -/
@[simp] theorem State.respondWord_slots (s : State) (W : CmdWord) : (s.respondWord W).slots = s.slots := rfl
@[simp] theorem State.respondWord_seqNext (s : State) (W : CmdWord) : (s.respondWord W).seqNext = s.seqNext := rfl
@[simp] theorem State.respondWord_run (s : State) (W : CmdWord) : (s.respondWord W).run = s.run := rfl
@[simp] theorem State.respondWord_refreshGeneral (s : State) (W : CmdWord) : (s.respondWord W).refreshGeneral = s.refreshGeneral := rfl
@[simp] theorem State.respondWord_refreshReserved (s : State) (W : CmdWord) : (s.respondWord W).refreshReserved = s.refreshReserved := rfl
@[simp] theorem State.respondWord_active (s : State) (W : CmdWord) : (s.respondWord W).active = s.active := rfl
@[simp] theorem State.respondWord_lastNow (s : State) (W : CmdWord) : (s.respondWord W).lastNow = s.lastNow := rfl
@[simp] theorem State.respondWord_stats (s : State) (W : CmdWord) : (s.respondWord W).stats = s.stats := rfl
@[simp] theorem State.respondWord_unspecSeen (s : State) (W : CmdWord) : (s.respondWord W).unspecSeen = s.unspecSeen := rfl
@[simp] theorem State.respondWord_params (s : State) (W : CmdWord) : (s.respondWord W).params = s.params := rfl
@[simp] theorem State.respondWord_mem (s : State) (W : CmdWord) : (s.respondWord W).mem = s.mem := rfl
@[simp] theorem State.respondWord_submitted (s : State) (W : CmdWord) : (s.respondWord W).submitted = s.submitted := rfl
@[simp] theorem State.respondWord_resp (s : State) (W : CmdWord) : (s.respondWord W).resp = { s.resp with word := some W } := rfl
@[simp] theorem State.respondWord_inputs (s : State) (W : CmdWord) : (s.respondWord W).inputs = s.inputs := rfl
@[simp] theorem State.respondWord_draws (s : State) (W : CmdWord) : (s.respondWord W).draws = s.draws := rfl
@[simp] theorem State.respondWord_drawCount (s : State) (W : CmdWord) : (s.respondWord W).drawCount = s.drawCount := rfl
@[simp] theorem State.respondWord_slotAt (s : State) (W : CmdWord) (j : Nat) : (s.respondWord W).slotAt j = s.slotAt j := rfl
@[simp] theorem State.respondWord_tokAt (s : State) (W : CmdWord) (j : Nat) : (s.respondWord W).tokAt j = s.tokAt j := rfl
@[simp] theorem State.respondWord_numSlots (s : State) (W : CmdWord) : (s.respondWord W).numSlots = s.numSlots := rfl

/-! `count` -/
@[simp] theorem State.count_slots (s : State) (f : Stats → Stats) : (s.count f).slots = s.slots := rfl
@[simp] theorem State.count_seqNext (s : State) (f : Stats → Stats) : (s.count f).seqNext = s.seqNext := rfl
@[simp] theorem State.count_run (s : State) (f : Stats → Stats) : (s.count f).run = s.run := rfl
@[simp] theorem State.count_refreshGeneral (s : State) (f : Stats → Stats) : (s.count f).refreshGeneral = s.refreshGeneral := rfl
@[simp] theorem State.count_refreshReserved (s : State) (f : Stats → Stats) : (s.count f).refreshReserved = s.refreshReserved := rfl
@[simp] theorem State.count_active (s : State) (f : Stats → Stats) : (s.count f).active = s.active := rfl
@[simp] theorem State.count_lastNow (s : State) (f : Stats → Stats) : (s.count f).lastNow = s.lastNow := rfl
@[simp] theorem State.count_stats (s : State) (f : Stats → Stats) : (s.count f).stats = f s.stats := rfl
@[simp] theorem State.count_unspecSeen (s : State) (f : Stats → Stats) : (s.count f).unspecSeen = s.unspecSeen := rfl
@[simp] theorem State.count_params (s : State) (f : Stats → Stats) : (s.count f).params = s.params := rfl
@[simp] theorem State.count_mem (s : State) (f : Stats → Stats) : (s.count f).mem = s.mem := rfl
@[simp] theorem State.count_submitted (s : State) (f : Stats → Stats) : (s.count f).submitted = s.submitted := rfl
@[simp] theorem State.count_resp (s : State) (f : Stats → Stats) : (s.count f).resp = s.resp := rfl
@[simp] theorem State.count_inputs (s : State) (f : Stats → Stats) : (s.count f).inputs = s.inputs := rfl
@[simp] theorem State.count_draws (s : State) (f : Stats → Stats) : (s.count f).draws = s.draws := rfl
@[simp] theorem State.count_drawCount (s : State) (f : Stats → Stats) : (s.count f).drawCount = s.drawCount := rfl
@[simp] theorem State.count_slotAt (s : State) (f : Stats → Stats) (j : Nat) : (s.count f).slotAt j = s.slotAt j := rfl
@[simp] theorem State.count_tokAt (s : State) (f : Stats → Stats) (j : Nat) : (s.count f).tokAt j = s.tokAt j := rfl
@[simp] theorem State.count_numSlots (s : State) (f : Stats → Stats) : (s.count f).numSlots = s.numSlots := rfl

/-! `raise` -/
@[simp] theorem State.raise_slots (s : State) (e : OpError) : (s.raise e).slots = s.slots := rfl
@[simp] theorem State.raise_seqNext (s : State) (e : OpError) : (s.raise e).seqNext = s.seqNext := rfl
@[simp] theorem State.raise_run (s : State) (e : OpError) : (s.raise e).run = s.run := rfl
@[simp] theorem State.raise_refreshGeneral (s : State) (e : OpError) : (s.raise e).refreshGeneral = s.refreshGeneral := rfl
@[simp] theorem State.raise_refreshReserved (s : State) (e : OpError) : (s.raise e).refreshReserved = s.refreshReserved := rfl
@[simp] theorem State.raise_active (s : State) (e : OpError) : (s.raise e).active = s.active := rfl
@[simp] theorem State.raise_lastNow (s : State) (e : OpError) : (s.raise e).lastNow = s.lastNow := rfl
@[simp] theorem State.raise_stats (s : State) (e : OpError) : (s.raise e).stats = s.stats := rfl
@[simp] theorem State.raise_unspecSeen (s : State) (e : OpError) : (s.raise e).unspecSeen = s.unspecSeen := rfl
@[simp] theorem State.raise_params (s : State) (e : OpError) : (s.raise e).params = s.params := rfl
@[simp] theorem State.raise_mem (s : State) (e : OpError) : (s.raise e).mem = s.mem := rfl
@[simp] theorem State.raise_submitted (s : State) (e : OpError) : (s.raise e).submitted = s.submitted := rfl
@[simp] theorem State.raise_resp (s : State) (e : OpError) : (s.raise e).resp = { Response.empty with err := some e } := rfl
@[simp] theorem State.raise_inputs (s : State) (e : OpError) : (s.raise e).inputs = s.inputs := rfl
@[simp] theorem State.raise_draws (s : State) (e : OpError) : (s.raise e).draws = s.draws := rfl
@[simp] theorem State.raise_drawCount (s : State) (e : OpError) : (s.raise e).drawCount = s.drawCount := rfl
@[simp] theorem State.raise_slotAt (s : State) (e : OpError) (j : Nat) : (s.raise e).slotAt j = s.slotAt j := rfl
@[simp] theorem State.raise_tokAt (s : State) (e : OpError) (j : Nat) : (s.raise e).tokAt j = s.tokAt j := rfl
@[simp] theorem State.raise_numSlots (s : State) (e : OpError) : (s.raise e).numSlots = s.numSlots := rfl

/-! `atTime` -/
@[simp] theorem State.atTime_slots (s : State) (now : Nat) : (s.atTime now).slots = s.slots := rfl
@[simp] theorem State.atTime_seqNext (s : State) (now : Nat) : (s.atTime now).seqNext = s.seqNext := rfl
@[simp] theorem State.atTime_run (s : State) (now : Nat) : (s.atTime now).run = s.run := rfl
@[simp] theorem State.atTime_refreshGeneral (s : State) (now : Nat) : (s.atTime now).refreshGeneral = s.refreshGeneral := rfl
@[simp] theorem State.atTime_refreshReserved (s : State) (now : Nat) : (s.atTime now).refreshReserved = s.refreshReserved := rfl
@[simp] theorem State.atTime_active (s : State) (now : Nat) : (s.atTime now).active = s.active := rfl
@[simp] theorem State.atTime_lastNow (s : State) (now : Nat) : (s.atTime now).lastNow = now := rfl
@[simp] theorem State.atTime_stats (s : State) (now : Nat) : (s.atTime now).stats = s.stats := rfl
@[simp] theorem State.atTime_unspecSeen (s : State) (now : Nat) : (s.atTime now).unspecSeen = s.unspecSeen := rfl
@[simp] theorem State.atTime_params (s : State) (now : Nat) : (s.atTime now).params = s.params := rfl
@[simp] theorem State.atTime_mem (s : State) (now : Nat) : (s.atTime now).mem = s.mem := rfl
@[simp] theorem State.atTime_submitted (s : State) (now : Nat) : (s.atTime now).submitted = s.submitted := rfl
@[simp] theorem State.atTime_resp (s : State) (now : Nat) : (s.atTime now).resp = s.resp := rfl
@[simp] theorem State.atTime_inputs (s : State) (now : Nat) : (s.atTime now).inputs = s.inputs := rfl
@[simp] theorem State.atTime_draws (s : State) (now : Nat) : (s.atTime now).draws = s.draws := rfl
@[simp] theorem State.atTime_drawCount (s : State) (now : Nat) : (s.atTime now).drawCount = s.drawCount := rfl
@[simp] theorem State.atTime_slotAt (s : State) (now : Nat) (j : Nat) : (s.atTime now).slotAt j = s.slotAt j := rfl
@[simp] theorem State.atTime_tokAt (s : State) (now : Nat) (j : Nat) : (s.atTime now).tokAt j = s.tokAt j := rfl
@[simp] theorem State.atTime_numSlots (s : State) (now : Nat) : (s.atTime now).numSlots = s.numSlots := rfl

/-! `modSlot` -/
@[simp] theorem State.modSlot_slots (s : State) (i : Nat) (f : Slot → Slot) : (s.modSlot i f).slots = s.slots.modify i f := rfl
@[simp] theorem State.modSlot_seqNext (s : State) (i : Nat) (f : Slot → Slot) : (s.modSlot i f).seqNext = s.seqNext := rfl
@[simp] theorem State.modSlot_run (s : State) (i : Nat) (f : Slot → Slot) : (s.modSlot i f).run = s.run := rfl
@[simp] theorem State.modSlot_refreshGeneral (s : State) (i : Nat) (f : Slot → Slot) : (s.modSlot i f).refreshGeneral = s.refreshGeneral := rfl
@[simp] theorem State.modSlot_refreshReserved (s : State) (i : Nat) (f : Slot → Slot) : (s.modSlot i f).refreshReserved = s.refreshReserved := rfl
@[simp] theorem State.modSlot_active (s : State) (i : Nat) (f : Slot → Slot) : (s.modSlot i f).active = s.active := rfl
@[simp] theorem State.modSlot_lastNow (s : State) (i : Nat) (f : Slot → Slot) : (s.modSlot i f).lastNow = s.lastNow := rfl
@[simp] theorem State.modSlot_stats (s : State) (i : Nat) (f : Slot → Slot) : (s.modSlot i f).stats = s.stats := rfl
@[simp] theorem State.modSlot_unspecSeen (s : State) (i : Nat) (f : Slot → Slot) : (s.modSlot i f).unspecSeen = s.unspecSeen := rfl
@[simp] theorem State.modSlot_params (s : State) (i : Nat) (f : Slot → Slot) : (s.modSlot i f).params = s.params := rfl
@[simp] theorem State.modSlot_mem (s : State) (i : Nat) (f : Slot → Slot) : (s.modSlot i f).mem = s.mem := rfl
@[simp] theorem State.modSlot_submitted (s : State) (i : Nat) (f : Slot → Slot) : (s.modSlot i f).submitted = s.submitted := rfl
@[simp] theorem State.modSlot_resp (s : State) (i : Nat) (f : Slot → Slot) : (s.modSlot i f).resp = s.resp := rfl
@[simp] theorem State.modSlot_inputs (s : State) (i : Nat) (f : Slot → Slot) : (s.modSlot i f).inputs = s.inputs := rfl
@[simp] theorem State.modSlot_draws (s : State) (i : Nat) (f : Slot → Slot) : (s.modSlot i f).draws = s.draws := rfl
@[simp] theorem State.modSlot_drawCount (s : State) (i : Nat) (f : Slot → Slot) : (s.modSlot i f).drawCount = s.drawCount := rfl

/-! `modTok` -/
@[simp] theorem State.modTok_slots (s : State) (i : Nat) (f : Token → Token) : (s.modTok i f).slots = s.slots.modify i (fun sl => { sl with tok := f sl.tok }) := rfl
@[simp] theorem State.modTok_seqNext (s : State) (i : Nat) (f : Token → Token) : (s.modTok i f).seqNext = s.seqNext := rfl
@[simp] theorem State.modTok_run (s : State) (i : Nat) (f : Token → Token) : (s.modTok i f).run = s.run := rfl
@[simp] theorem State.modTok_refreshGeneral (s : State) (i : Nat) (f : Token → Token) : (s.modTok i f).refreshGeneral = s.refreshGeneral := rfl
@[simp] theorem State.modTok_refreshReserved (s : State) (i : Nat) (f : Token → Token) : (s.modTok i f).refreshReserved = s.refreshReserved := rfl
@[simp] theorem State.modTok_active (s : State) (i : Nat) (f : Token → Token) : (s.modTok i f).active = s.active := rfl
@[simp] theorem State.modTok_lastNow (s : State) (i : Nat) (f : Token → Token) : (s.modTok i f).lastNow = s.lastNow := rfl
@[simp] theorem State.modTok_stats (s : State) (i : Nat) (f : Token → Token) : (s.modTok i f).stats = s.stats := rfl
@[simp] theorem State.modTok_unspecSeen (s : State) (i : Nat) (f : Token → Token) : (s.modTok i f).unspecSeen = s.unspecSeen := rfl
@[simp] theorem State.modTok_params (s : State) (i : Nat) (f : Token → Token) : (s.modTok i f).params = s.params := rfl
@[simp] theorem State.modTok_mem (s : State) (i : Nat) (f : Token → Token) : (s.modTok i f).mem = s.mem := rfl
@[simp] theorem State.modTok_submitted (s : State) (i : Nat) (f : Token → Token) : (s.modTok i f).submitted = s.submitted := rfl
@[simp] theorem State.modTok_resp (s : State) (i : Nat) (f : Token → Token) : (s.modTok i f).resp = s.resp := rfl
@[simp] theorem State.modTok_inputs (s : State) (i : Nat) (f : Token → Token) : (s.modTok i f).inputs = s.inputs := rfl
@[simp] theorem State.modTok_draws (s : State) (i : Nat) (f : Token → Token) : (s.modTok i f).draws = s.draws := rfl
@[simp] theorem State.modTok_drawCount (s : State) (i : Nat) (f : Token → Token) : (s.modTok i f).drawCount = s.drawCount := rfl

/-! `modCtr` -/
@[simp] theorem State.modCtr_slots (s : State) (i : Nat) (f : RetryCtr → RetryCtr) : (s.modCtr i f).slots = s.slots.modify i (fun sl => { sl with ctr := f sl.ctr }) := rfl
@[simp] theorem State.modCtr_seqNext (s : State) (i : Nat) (f : RetryCtr → RetryCtr) : (s.modCtr i f).seqNext = s.seqNext := rfl
@[simp] theorem State.modCtr_run (s : State) (i : Nat) (f : RetryCtr → RetryCtr) : (s.modCtr i f).run = s.run := rfl
@[simp] theorem State.modCtr_refreshGeneral (s : State) (i : Nat) (f : RetryCtr → RetryCtr) : (s.modCtr i f).refreshGeneral = s.refreshGeneral := rfl
@[simp] theorem State.modCtr_refreshReserved (s : State) (i : Nat) (f : RetryCtr → RetryCtr) : (s.modCtr i f).refreshReserved = s.refreshReserved := rfl
@[simp] theorem State.modCtr_active (s : State) (i : Nat) (f : RetryCtr → RetryCtr) : (s.modCtr i f).active = s.active := rfl
@[simp] theorem State.modCtr_lastNow (s : State) (i : Nat) (f : RetryCtr → RetryCtr) : (s.modCtr i f).lastNow = s.lastNow := rfl
@[simp] theorem State.modCtr_stats (s : State) (i : Nat) (f : RetryCtr → RetryCtr) : (s.modCtr i f).stats = s.stats := rfl
@[simp] theorem State.modCtr_unspecSeen (s : State) (i : Nat) (f : RetryCtr → RetryCtr) : (s.modCtr i f).unspecSeen = s.unspecSeen := rfl
@[simp] theorem State.modCtr_params (s : State) (i : Nat) (f : RetryCtr → RetryCtr) : (s.modCtr i f).params = s.params := rfl
@[simp] theorem State.modCtr_mem (s : State) (i : Nat) (f : RetryCtr → RetryCtr) : (s.modCtr i f).mem = s.mem := rfl
@[simp] theorem State.modCtr_submitted (s : State) (i : Nat) (f : RetryCtr → RetryCtr) : (s.modCtr i f).submitted = s.submitted := rfl
@[simp] theorem State.modCtr_resp (s : State) (i : Nat) (f : RetryCtr → RetryCtr) : (s.modCtr i f).resp = s.resp := rfl
@[simp] theorem State.modCtr_inputs (s : State) (i : Nat) (f : RetryCtr → RetryCtr) : (s.modCtr i f).inputs = s.inputs := rfl
@[simp] theorem State.modCtr_draws (s : State) (i : Nat) (f : RetryCtr → RetryCtr) : (s.modCtr i f).draws = s.draws := rfl
@[simp] theorem State.modCtr_drawCount (s : State) (i : Nat) (f : RetryCtr → RetryCtr) : (s.modCtr i f).drawCount = s.drawCount := rfl

/-! `setResult` -/
@[simp] theorem State.setResult_slots (s : State) (i : Nat) (r : Result) (w : Reason) : (s.setResult i r w).slots = s.slots.modify i (fun sl => { sl with tok := { sl.tok with result := r, why := some w } }) := rfl
@[simp] theorem State.setResult_seqNext (s : State) (i : Nat) (r : Result) (w : Reason) : (s.setResult i r w).seqNext = s.seqNext := rfl
@[simp] theorem State.setResult_run (s : State) (i : Nat) (r : Result) (w : Reason) : (s.setResult i r w).run = s.run := rfl
@[simp] theorem State.setResult_refreshGeneral (s : State) (i : Nat) (r : Result) (w : Reason) : (s.setResult i r w).refreshGeneral = s.refreshGeneral := rfl
@[simp] theorem State.setResult_refreshReserved (s : State) (i : Nat) (r : Result) (w : Reason) : (s.setResult i r w).refreshReserved = s.refreshReserved := rfl
@[simp] theorem State.setResult_active (s : State) (i : Nat) (r : Result) (w : Reason) : (s.setResult i r w).active = s.active := rfl
@[simp] theorem State.setResult_lastNow (s : State) (i : Nat) (r : Result) (w : Reason) : (s.setResult i r w).lastNow = s.lastNow := rfl
@[simp] theorem State.setResult_stats (s : State) (i : Nat) (r : Result) (w : Reason) : (s.setResult i r w).stats = s.stats := rfl
@[simp] theorem State.setResult_unspecSeen (s : State) (i : Nat) (r : Result) (w : Reason) : (s.setResult i r w).unspecSeen = s.unspecSeen := rfl
@[simp] theorem State.setResult_params (s : State) (i : Nat) (r : Result) (w : Reason) : (s.setResult i r w).params = s.params := rfl
@[simp] theorem State.setResult_mem (s : State) (i : Nat) (r : Result) (w : Reason) : (s.setResult i r w).mem = s.mem := rfl
@[simp] theorem State.setResult_submitted (s : State) (i : Nat) (r : Result) (w : Reason) : (s.setResult i r w).submitted = s.submitted := rfl
@[simp] theorem State.setResult_resp (s : State) (i : Nat) (r : Result) (w : Reason) : (s.setResult i r w).resp = s.resp := rfl
@[simp] theorem State.setResult_inputs (s : State) (i : Nat) (r : Result) (w : Reason) : (s.setResult i r w).inputs = s.inputs := rfl
@[simp] theorem State.setResult_draws (s : State) (i : Nat) (r : Result) (w : Reason) : (s.setResult i r w).draws = s.draws := rfl
@[simp] theorem State.setResult_drawCount (s : State) (i : Nat) (r : Result) (w : Reason) : (s.setResult i r w).drawCount = s.drawCount := rfl

/-! `drawn` -/
@[simp] theorem State.drawn_slots (s : State) : (s.drawn).slots = s.slots := rfl
@[simp] theorem State.drawn_seqNext (s : State) : (s.drawn).seqNext = s.seqNext := rfl
@[simp] theorem State.drawn_run (s : State) : (s.drawn).run = s.run := rfl
@[simp] theorem State.drawn_refreshGeneral (s : State) : (s.drawn).refreshGeneral = s.refreshGeneral := rfl
@[simp] theorem State.drawn_refreshReserved (s : State) : (s.drawn).refreshReserved = s.refreshReserved := rfl
@[simp] theorem State.drawn_active (s : State) : (s.drawn).active = s.active := rfl
@[simp] theorem State.drawn_lastNow (s : State) : (s.drawn).lastNow = s.lastNow := rfl
@[simp] theorem State.drawn_stats (s : State) : (s.drawn).stats = s.stats := rfl
@[simp] theorem State.drawn_unspecSeen (s : State) : (s.drawn).unspecSeen = s.unspecSeen := rfl
@[simp] theorem State.drawn_params (s : State) : (s.drawn).params = s.params := rfl
@[simp] theorem State.drawn_mem (s : State) : (s.drawn).mem = s.mem := rfl
@[simp] theorem State.drawn_submitted (s : State) : (s.drawn).submitted = s.submitted := rfl
@[simp] theorem State.drawn_resp (s : State) : (s.drawn).resp = s.resp := rfl
@[simp] theorem State.drawn_inputs (s : State) : (s.drawn).inputs = s.inputs := rfl
@[simp] theorem State.drawn_draws (s : State) : (s.drawn).draws = s.draws.tail := rfl
@[simp] theorem State.drawn_drawCount (s : State) : (s.drawn).drawCount = s.drawCount + 1 := rfl
@[simp] theorem State.drawn_slotAt (s : State) (j : Nat) : (s.drawn).slotAt j = s.slotAt j := rfl
@[simp] theorem State.drawn_tokAt (s : State) (j : Nat) : (s.drawn).tokAt j = s.tokAt j := rfl
@[simp] theorem State.drawn_numSlots (s : State) : (s.drawn).numSlots = s.numSlots := rfl

/-! `writeCmd` -/
@[simp] theorem State.writeCmd_slots (s : State) (i : Nat) (W : CmdWord) : (s.writeCmd i W).slots = s.slots := by simp only [State.writeCmd]
@[simp] theorem State.writeCmd_seqNext (s : State) (i : Nat) (W : CmdWord) : (s.writeCmd i W).seqNext = s.seqNext := by simp only [State.writeCmd]
@[simp] theorem State.writeCmd_run (s : State) (i : Nat) (W : CmdWord) : (s.writeCmd i W).run = s.run := by simp only [State.writeCmd]
@[simp] theorem State.writeCmd_refreshGeneral (s : State) (i : Nat) (W : CmdWord) : (s.writeCmd i W).refreshGeneral = s.refreshGeneral := by simp only [State.writeCmd]
@[simp] theorem State.writeCmd_refreshReserved (s : State) (i : Nat) (W : CmdWord) : (s.writeCmd i W).refreshReserved = s.refreshReserved := by simp only [State.writeCmd]
@[simp] theorem State.writeCmd_active (s : State) (i : Nat) (W : CmdWord) : (s.writeCmd i W).active = s.active := by simp only [State.writeCmd]
@[simp] theorem State.writeCmd_lastNow (s : State) (i : Nat) (W : CmdWord) : (s.writeCmd i W).lastNow = s.lastNow := by simp only [State.writeCmd]
@[simp] theorem State.writeCmd_stats (s : State) (i : Nat) (W : CmdWord) : (s.writeCmd i W).stats = s.stats := by simp only [State.writeCmd]
@[simp] theorem State.writeCmd_unspecSeen (s : State) (i : Nat) (W : CmdWord) : (s.writeCmd i W).unspecSeen = s.unspecSeen := by simp only [State.writeCmd]
@[simp] theorem State.writeCmd_params (s : State) (i : Nat) (W : CmdWord) : (s.writeCmd i W).params = s.params := by simp only [State.writeCmd]
@[simp] theorem State.writeCmd_mem (s : State) (i : Nat) (W : CmdWord) : (s.writeCmd i W).mem = s.mem.writeBytes (s.cmdAddr i) W.bytes := by simp only [State.writeCmd]
@[simp] theorem State.writeCmd_submitted (s : State) (i : Nat) (W : CmdWord) : (s.writeCmd i W).submitted = s.submitted ++ [(i, W)] := by simp only [State.writeCmd]
@[simp] theorem State.writeCmd_resp (s : State) (i : Nat) (W : CmdWord) : (s.writeCmd i W).resp = s.resp := by simp only [State.writeCmd]
@[simp] theorem State.writeCmd_inputs (s : State) (i : Nat) (W : CmdWord) : (s.writeCmd i W).inputs = s.inputs := by simp only [State.writeCmd]
@[simp] theorem State.writeCmd_draws (s : State) (i : Nat) (W : CmdWord) : (s.writeCmd i W).draws = s.draws := by simp only [State.writeCmd]
@[simp] theorem State.writeCmd_drawCount (s : State) (i : Nat) (W : CmdWord) : (s.writeCmd i W).drawCount = s.drawCount := by simp only [State.writeCmd]
@[simp] theorem State.writeCmd_slotAt (s : State) (i : Nat) (W : CmdWord) (j : Nat) : (s.writeCmd i W).slotAt j = s.slotAt j := by simp only [State.slotAt, State.writeCmd]
@[simp] theorem State.writeCmd_tokAt (s : State) (i : Nat) (W : CmdWord) (j : Nat) : (s.writeCmd i W).tokAt j = s.tokAt j := by simp only [State.slotAt, State.tokAt, State.writeCmd]
@[simp] theorem State.writeCmd_numSlots (s : State) (i : Nat) (W : CmdWord) : (s.writeCmd i W).numSlots = s.numSlots := by simp only [State.numSlots, State.writeCmd]

/-! `refreshSlots` -/
@[simp] theorem State.refreshSlots_seqNext (s : State) (t : TokenType) : (s.refreshSlots t).seqNext = s.seqNext := rfl
@[simp] theorem State.refreshSlots_run (s : State) (t : TokenType) : (s.refreshSlots t).run = s.run := rfl
@[simp] theorem State.refreshSlots_refreshGeneral (s : State) (t : TokenType) : (s.refreshSlots t).refreshGeneral = s.refreshGeneral := rfl
@[simp] theorem State.refreshSlots_refreshReserved (s : State) (t : TokenType) : (s.refreshSlots t).refreshReserved = s.refreshReserved := rfl
@[simp] theorem State.refreshSlots_active (s : State) (t : TokenType) : (s.refreshSlots t).active = s.active := rfl
@[simp] theorem State.refreshSlots_lastNow (s : State) (t : TokenType) : (s.refreshSlots t).lastNow = s.lastNow := rfl
@[simp] theorem State.refreshSlots_stats (s : State) (t : TokenType) : (s.refreshSlots t).stats = s.stats := rfl
@[simp] theorem State.refreshSlots_unspecSeen (s : State) (t : TokenType) : (s.refreshSlots t).unspecSeen = s.unspecSeen := rfl
@[simp] theorem State.refreshSlots_params (s : State) (t : TokenType) : (s.refreshSlots t).params = s.params := rfl
@[simp] theorem State.refreshSlots_mem (s : State) (t : TokenType) : (s.refreshSlots t).mem = s.mem := rfl
@[simp] theorem State.refreshSlots_submitted (s : State) (t : TokenType) : (s.refreshSlots t).submitted = s.submitted := rfl
@[simp] theorem State.refreshSlots_resp (s : State) (t : TokenType) : (s.refreshSlots t).resp = s.resp := rfl
@[simp] theorem State.refreshSlots_inputs (s : State) (t : TokenType) : (s.refreshSlots t).inputs = s.inputs := rfl
@[simp] theorem State.refreshSlots_draws (s : State) (t : TokenType) : (s.refreshSlots t).draws = s.draws := rfl
@[simp] theorem State.refreshSlots_drawCount (s : State) (t : TokenType) : (s.refreshSlots t).drawCount = s.drawCount := rfl

/-! `answered` -/
@[simp] theorem State.answered_slots (s : State) (r : Response) : (s.answered r).slots = s.slots := rfl
@[simp] theorem State.answered_seqNext (s : State) (r : Response) : (s.answered r).seqNext = s.seqNext := rfl
@[simp] theorem State.answered_run (s : State) (r : Response) : (s.answered r).run = s.run := rfl
@[simp] theorem State.answered_refreshGeneral (s : State) (r : Response) : (s.answered r).refreshGeneral = s.refreshGeneral := rfl
@[simp] theorem State.answered_refreshReserved (s : State) (r : Response) : (s.answered r).refreshReserved = s.refreshReserved := rfl
@[simp] theorem State.answered_active (s : State) (r : Response) : (s.answered r).active = s.active := rfl
@[simp] theorem State.answered_lastNow (s : State) (r : Response) : (s.answered r).lastNow = s.lastNow := rfl
@[simp] theorem State.answered_stats (s : State) (r : Response) : (s.answered r).stats = s.stats := rfl
@[simp] theorem State.answered_unspecSeen (s : State) (r : Response) : (s.answered r).unspecSeen = s.unspecSeen := rfl
@[simp] theorem State.answered_params (s : State) (r : Response) : (s.answered r).params = s.params := rfl
@[simp] theorem State.answered_mem (s : State) (r : Response) : (s.answered r).mem = s.mem := rfl
@[simp] theorem State.answered_submitted (s : State) (r : Response) : (s.answered r).submitted = s.submitted := rfl
@[simp] theorem State.answered_resp (s : State) (r : Response) : (s.answered r).resp = r := rfl
@[simp] theorem State.answered_inputs (s : State) (r : Response) : (s.answered r).inputs = s.inputs := rfl
@[simp] theorem State.answered_draws (s : State) (r : Response) : (s.answered r).draws = s.draws := rfl
@[simp] theorem State.answered_drawCount (s : State) (r : Response) : (s.answered r).drawCount = s.drawCount := rfl
@[simp] theorem State.answered_slotAt (s : State) (r : Response) (j : Nat) : (s.answered r).slotAt j = s.slotAt j := rfl
@[simp] theorem State.answered_tokAt (s : State) (r : Response) (j : Nat) : (s.answered r).tokAt j = s.tokAt j := rfl
@[simp] theorem State.answered_numSlots (s : State) (r : Response) : (s.answered r).numSlots = s.numSlots := rfl

/-! `withEvents` -/
@[simp] theorem State.withEvents_slots (s : State) (evs : List Event) : (s.withEvents evs).slots = s.slots := rfl
@[simp] theorem State.withEvents_seqNext (s : State) (evs : List Event) : (s.withEvents evs).seqNext = s.seqNext := rfl
@[simp] theorem State.withEvents_run (s : State) (evs : List Event) : (s.withEvents evs).run = s.run := rfl
@[simp] theorem State.withEvents_refreshGeneral (s : State) (evs : List Event) : (s.withEvents evs).refreshGeneral = s.refreshGeneral := rfl
@[simp] theorem State.withEvents_refreshReserved (s : State) (evs : List Event) : (s.withEvents evs).refreshReserved = s.refreshReserved := rfl
@[simp] theorem State.withEvents_active (s : State) (evs : List Event) : (s.withEvents evs).active = s.active := rfl
@[simp] theorem State.withEvents_lastNow (s : State) (evs : List Event) : (s.withEvents evs).lastNow = s.lastNow := rfl
@[simp] theorem State.withEvents_stats (s : State) (evs : List Event) : (s.withEvents evs).stats = s.stats := rfl
@[simp] theorem State.withEvents_unspecSeen (s : State) (evs : List Event) : (s.withEvents evs).unspecSeen = s.unspecSeen := rfl
@[simp] theorem State.withEvents_params (s : State) (evs : List Event) : (s.withEvents evs).params = s.params := rfl
@[simp] theorem State.withEvents_mem (s : State) (evs : List Event) : (s.withEvents evs).mem = s.mem := rfl
@[simp] theorem State.withEvents_submitted (s : State) (evs : List Event) : (s.withEvents evs).submitted = s.submitted := rfl
@[simp] theorem State.withEvents_inputs (s : State) (evs : List Event) : (s.withEvents evs).inputs = s.inputs := rfl
@[simp] theorem State.withEvents_draws (s : State) (evs : List Event) : (s.withEvents evs).draws = s.draws := rfl
@[simp] theorem State.withEvents_drawCount (s : State) (evs : List Event) : (s.withEvents evs).drawCount = s.drawCount := rfl
@[simp] theorem State.withEvents_resp (s : State) (evs : List Event) :
    (s.withEvents evs).resp = { s.resp with events := evs ++ s.resp.events } := rfl
@[simp] theorem State.withEvents_slotAt (s : State) (evs : List Event) (j : Nat) : (s.withEvents evs).slotAt j = s.slotAt j := rfl
@[simp] theorem State.withEvents_tokAt (s : State) (evs : List Event) (j : Nat) : (s.withEvents evs).tokAt j = s.tokAt j := rfl
@[simp] theorem State.withEvents_numSlots (s : State) (evs : List Event) : (s.withEvents evs).numSlots = s.numSlots := rfl

@[simp] theorem State.setRefreshTime_slots (s : State) (t : TokenType) (now : Nat) : (s.setRefreshTime t now).slots = s.slots := by cases t <;> rfl
@[simp] theorem State.setRefreshTime_seqNext (s : State) (t : TokenType) (now : Nat) : (s.setRefreshTime t now).seqNext = s.seqNext := by cases t <;> rfl
@[simp] theorem State.setRefreshTime_run (s : State) (t : TokenType) (now : Nat) : (s.setRefreshTime t now).run = s.run := by cases t <;> rfl
@[simp] theorem State.setRefreshTime_active (s : State) (t : TokenType) (now : Nat) : (s.setRefreshTime t now).active = s.active := by cases t <;> rfl
@[simp] theorem State.setRefreshTime_lastNow (s : State) (t : TokenType) (now : Nat) : (s.setRefreshTime t now).lastNow = s.lastNow := by cases t <;> rfl
@[simp] theorem State.setRefreshTime_stats (s : State) (t : TokenType) (now : Nat) : (s.setRefreshTime t now).stats = s.stats := by cases t <;> rfl
@[simp] theorem State.setRefreshTime_unspecSeen (s : State) (t : TokenType) (now : Nat) : (s.setRefreshTime t now).unspecSeen = s.unspecSeen := by cases t <;> rfl
@[simp] theorem State.setRefreshTime_params (s : State) (t : TokenType) (now : Nat) : (s.setRefreshTime t now).params = s.params := by cases t <;> rfl
@[simp] theorem State.setRefreshTime_mem (s : State) (t : TokenType) (now : Nat) : (s.setRefreshTime t now).mem = s.mem := by cases t <;> rfl
@[simp] theorem State.setRefreshTime_submitted (s : State) (t : TokenType) (now : Nat) : (s.setRefreshTime t now).submitted = s.submitted := by cases t <;> rfl
@[simp] theorem State.setRefreshTime_resp (s : State) (t : TokenType) (now : Nat) : (s.setRefreshTime t now).resp = s.resp := by cases t <;> rfl
@[simp] theorem State.setRefreshTime_inputs (s : State) (t : TokenType) (now : Nat) : (s.setRefreshTime t now).inputs = s.inputs := by cases t <;> rfl
@[simp] theorem State.setRefreshTime_draws (s : State) (t : TokenType) (now : Nat) : (s.setRefreshTime t now).draws = s.draws := by cases t <;> rfl
@[simp] theorem State.setRefreshTime_drawCount (s : State) (t : TokenType) (now : Nat) : (s.setRefreshTime t now).drawCount = s.drawCount := by cases t <;> rfl
@[simp] theorem State.setRefreshTime_general (s : State) (now : Nat) :
    s.setRefreshTime .general now = { s with refreshGeneral := some now } := rfl
@[simp] theorem State.setRefreshTime_reserved (s : State) (now : Nat) :
    s.setRefreshTime .reserved now = { s with refreshReserved := some now } := rfl

/-! The slot table after an update -/

/-- The slot at an index of the table. -/
theorem State.slotAt_eq_getElem (s : State) (i : Nat) (h : i < s.slots.length) : s.slotAt i = s.slots[i] := by
  simp [State.slotAt, List.getD_eq_getElem?_getD, List.getElem?_eq_getElem h]

/-- Past the table stands a reset slot. -/
theorem State.slotAt_out (s : State) (i : Nat) (h : s.numSlots ≤ i) : s.slotAt i = Slot.reset := by
  have h' : s.slots.length ≤ i := h
  simp [State.slotAt, List.getD_eq_getElem?_getD, List.getElem?_eq_none h']

@[simp] theorem State.modSlot_numSlots (s : State) (i : Nat) (f : Slot → Slot) : (s.modSlot i f).numSlots = s.numSlots := by
  simp [State.numSlots]
@[simp] theorem State.modTok_numSlots (s : State) (i : Nat) (f : Token → Token) : (s.modTok i f).numSlots = s.numSlots := by
  simp [State.numSlots]
@[simp] theorem State.modCtr_numSlots (s : State) (i : Nat) (f : RetryCtr → RetryCtr) : (s.modCtr i f).numSlots = s.numSlots := by
  simp [State.numSlots]
@[simp] theorem State.setResult_numSlots (s : State) (i : Nat) (r : Result) (w : Reason) :
    (s.setResult i r w).numSlots = s.numSlots := by simp [State.numSlots]
@[simp] theorem State.refreshSlots_numSlots (s : State) (t : TokenType) : (s.refreshSlots t).numSlots = s.numSlots := by
  simp [State.numSlots, State.refreshSlots]

/-- The updated slot. -/
@[simp] theorem State.slotAt_modSlot_self (s : State) (i : Nat) (f : Slot → Slot) (h : i < s.numSlots) :
    (s.modSlot i f).slotAt i = f (s.slotAt i) := by
  have h' : i < s.slots.length := h
  simp [State.slotAt, List.getD_eq_getElem?_getD, List.getElem?_modify_eq, List.getElem?_eq_getElem h']

/-- Every other slot. -/
theorem State.slotAt_modSlot_ne (s : State) (i j : Nat) (f : Slot → Slot) (h : i ≠ j) :
    (s.modSlot i f).slotAt j = s.slotAt j := by
  simp [State.slotAt, List.getD_eq_getElem?_getD, h]

/-- A slot after an update of a slot. -/
theorem State.slotAt_modSlot (s : State) (i j : Nat) (f : Slot → Slot) :
    (s.modSlot i f).slotAt j = if i = j ∧ j < s.numSlots then f (s.slotAt j) else s.slotAt j := by
  by_cases h : i = j
  · subst h
    by_cases hi : i < s.numSlots
    · simp [hi]
    · rw [State.slotAt_out _ _ (by simpa using hi), State.slotAt_out s _ (by simpa using hi)]; simp [hi]
  · simp [h, State.slotAt_modSlot_ne s i j f h]

@[simp] theorem State.tokAt_modTok_self (s : State) (i : Nat) (f : Token → Token) (h : i < s.numSlots) :
    (s.modTok i f).tokAt i = f (s.tokAt i) := by
  simp [State.modTok, State.tokAt, h]
theorem State.tokAt_modTok_ne (s : State) (i j : Nat) (f : Token → Token) (h : i ≠ j) : (s.modTok i f).tokAt j = s.tokAt j := by
  simp [State.modTok, State.tokAt, State.slotAt_modSlot_ne s i j _ h]
theorem State.tokAt_modTok (s : State) (i j : Nat) (f : Token → Token) :
    (s.modTok i f).tokAt j = if i = j ∧ j < s.numSlots then f (s.tokAt j) else s.tokAt j := by
  simp only [State.tokAt, State.modTok, State.slotAt_modSlot]; split <;> rfl
theorem State.slotAt_modTok (s : State) (i j : Nat) (f : Token → Token) :
    (s.modTok i f).slotAt j = if i = j ∧ j < s.numSlots then { s.slotAt j with tok := f (s.tokAt j) } else s.slotAt j := by
  simp only [State.modTok, State.slotAt_modSlot]; rfl
theorem State.slotAt_modCtr (s : State) (i j : Nat) (f : RetryCtr → RetryCtr) :
    (s.modCtr i f).slotAt j = if i = j ∧ j < s.numSlots then { s.slotAt j with ctr := f (s.slotAt j).ctr } else s.slotAt j := by
  simp only [State.modCtr, State.slotAt_modSlot]
@[simp] theorem State.tokAt_modCtr (s : State) (i j : Nat) (f : RetryCtr → RetryCtr) : (s.modCtr i f).tokAt j = s.tokAt j := by
  simp only [State.tokAt, State.slotAt_modCtr]; split <;> rfl
@[simp] theorem State.tokAt_setResult_self (s : State) (i : Nat) (r : Result) (w : Reason) (h : i < s.numSlots) :
    (s.setResult i r w).tokAt i = { s.tokAt i with result := r, why := some w } := by
  simp [State.setResult, h]
@[simp] theorem State.slotAt_modTok_cache (s : State) (i j : Nat) (f : Token → Token) :
    ((s.modTok i f).slotAt j).cache = (s.slotAt j).cache := by rw [State.slotAt_modTok]; split <;> rfl
@[simp] theorem State.slotAt_modTok_odd (s : State) (i j : Nat) (f : Token → Token) :
    ((s.modTok i f).slotAt j).odd = (s.slotAt j).odd := by rw [State.slotAt_modTok]; split <;> rfl
@[simp] theorem State.slotAt_modTok_ctr (s : State) (i j : Nat) (f : Token → Token) :
    ((s.modTok i f).slotAt j).ctr = (s.slotAt j).ctr := by rw [State.slotAt_modTok]; split <;> rfl

/-- Two updates of one slot are one. -/
@[simp] theorem State.modSlot_modSlot (s : State) (i : Nat) (f g : Slot → Slot) :
    (s.modSlot i f).modSlot i g = s.modSlot i (g ∘ f) := by
  simp [State.modSlot, List.modify_modify_eq]

end Sys2Proof.Machine
end

