-- ==== Sys2Proof/Laws/Memory.lean ====
section
/-! SUPPORT. Device memory: a read after a write, writes elsewhere, and the canonical form, which every memory
operation keeps and the state after reset has. -/

namespace Sys2Proof.Machine

open Sys2Proof

/-- A cell read after a byte was written. -/
theorem cellsRead_cellsWrite (cs : List Host.Cell) (a x : Nat) (b : Byte) :
    cellsRead (cellsWrite cs a b) x = if x = a then some b else cellsRead cs x := by
  induction cs with
  | nil => simp only [cellsWrite, cellsRead, eq_comm]
  | cons c cs ih =>
    unfold cellsWrite
    split
    · simp only [cellsRead, ih]; split <;> rename_i h <;> split <;> first | rfl | omega
    · split
      · simp only [cellsRead]; split <;> rename_i h <;> split <;> first | rfl | omega | (simp_all)
      · by_cases h : x = a
        · subst h; simp [cellsRead]
        · simp only [cellsRead]; rw [if_neg (fun e => h e.symm), if_neg h]

/-- The bytes of memory after a byte was written. -/
theorem Memory.read_write (m : Memory) (a x : Nat) (b : Byte) :
    (m.write a b).read x = if x = a then some b else m.read x := cellsRead_cellsWrite m.cells a x b

/-- The bytes of memory after bytes were written at ascending addresses. -/
theorem Memory.read_writeBytes (m : Memory) (a x : Nat) (bs : List Byte) :
    (m.writeBytes a bs).read x = if a ≤ x ∧ x < a + bs.length then bs[x - a]? else m.read x := by
  induction bs generalizing m a with
  | nil => simp only [Memory.writeBytes, List.length_nil]; split <;> first | rfl | omega
  | cons b bs ih =>
    simp only [Memory.writeBytes, ih, Memory.read_write, List.length_cons]
    by_cases h : x = a
    · subst h; simp
    · by_cases h1 : a + 1 ≤ x ∧ x < a + 1 + bs.length
      · have e : x - a = (x - (a + 1)) + 1 := by omega
        rw [if_pos h1, if_pos (by omega), e, List.getElem?_cons_succ]
      · rw [if_neg h1, if_neg h, if_neg (by omega)]

/-- A lower bound of the addresses of a list of cells. -/
theorem cellsWrite_above (cs : List Host.Cell) (a k : Nat) (b : Byte) (hk : k < a) (h : cs.all (fun d => decide (k < d.1)) = true) :
    (cellsWrite cs a b).all (fun d => decide (k < d.1)) = true := by
  induction cs with
  | nil => simp [cellsWrite, hk]
  | cons c cs ih =>
    simp only [List.all_cons, Bool.and_eq_true, decide_eq_true_eq] at h
    unfold cellsWrite
    split
    · simp only [List.all_cons, ih h.2, Bool.and_true, decide_eq_true_eq]; exact h.1
    · split <;> simp only [List.all_cons, Bool.and_eq_true, decide_eq_true_eq]
      · exact ⟨hk, h.2⟩
      · exact ⟨hk, h.1, h.2⟩

/-- A write keeps the addresses rising. -/
theorem cellsRising_cellsWrite (cs : List Host.Cell) (a : Nat) (b : Byte) (h : cellsRising cs = true) :
    cellsRising (cellsWrite cs a b) = true := by
  induction cs with
  | nil => simp [cellsWrite, cellsRising]
  | cons c cs ih =>
    simp only [cellsRising, Bool.and_eq_true] at h
    unfold cellsWrite
    split
    · rename_i hc
      simp only [cellsRising, Bool.and_eq_true]
      exact ⟨cellsWrite_above cs a c.1 b hc h.1, ih h.2⟩
    · rename_i hc
      split
      · rename_i he; subst he; simp only [cellsRising, Bool.and_eq_true]; exact h
      · rename_i he
        simp only [cellsRising, Bool.and_eq_true, List.all_cons, decide_eq_true_eq]
        refine ⟨⟨by omega, ?_⟩, h⟩
        refine List.all_eq_true.2 fun d hd => ?_
        have := List.all_eq_true.1 h.1 d hd
        simp only [decide_eq_true_eq] at this ⊢; omega

/-- A write of one byte keeps the canonical form. -/
theorem Memory.write_wf (m : Memory) (a : Nat) (b : Byte) (h : m.wf = true) : (m.write a b).wf = true :=
  cellsRising_cellsWrite m.cells a b h

/-- A write of bytes keeps the canonical form. -/
theorem Memory.writeBytes_wf (m : Memory) (a : Nat) (bs : List Byte) (h : m.wf = true) : (m.writeBytes a bs).wf = true := by
  induction bs generalizing m a with
  | nil => exact h
  | cons b bs ih => exact ih (m.write a b) (a + 1) (m.write_wf a b h)

/-- A write of a command slot keeps the canonical form. -/
theorem State.writeCmd_wf (s : State) (i : Nat) (W : CmdWord) (h : s.mem.wf = true) : (s.writeCmd i W).mem.wf = true := by
  rw [State.writeCmd_mem]; exact Memory.writeBytes_wf _ _ _ h

/-- A write of the device keeps the canonical form, and everything but memory. -/
theorem State.deviceWrite_spec (s t : State) (w : DeviceWrite) (h : s.deviceWrite w = .next t) :
    t = { s with mem := t.mem } ∧ (s.mem.wf = true → t.mem.wf = true) := by
  cases w with
  | status i b =>
    simp only [State.deviceWrite] at h
    split at h
    · cases h; exact ⟨rfl, Memory.writeBytes_wf _ _ _⟩
    · cases h
  | ext i v =>
    simp only [State.deviceWrite] at h
    split at h
    · cases h; exact ⟨rfl, Memory.writeBytes_wf _ _ _⟩
    · cases h

/-- The memory of the state after reset is in canonical form. -/
theorem State.resetWith_wf (n : Nat) (p : Params) : (State.resetWith n p).mem.wf = true := rfl

/-- A Command Word has 64 bytes. -/
theorem CmdWord.bytes_length (W : CmdWord) : W.bytes.length = 64 := rfl

/-- The bytes of memory after a command slot was written. -/
theorem State.read_writeCmd (s : State) (i : Nat) (W : CmdWord) (x : Nat) :
    (s.writeCmd i W).mem.read x =
      if s.cmdAddr i ≤ x ∧ x < s.cmdAddr i + 64 then W.bytes[x - s.cmdAddr i]? else s.mem.read x := by
  rw [State.writeCmd_mem, Memory.read_writeBytes]
  rfl

end Sys2Proof.Machine
end

