-- ==== Sys2Proof/Laws/Ops.lean ====
section
/-! SUPPORT. What each shared operation can do, once: the outcome of an operation of the port, a launch, a
re-write, the end of a POLL, the mark of out-of-order recovery. -/

namespace Sys2Proof.Machine

open Sys2Proof

/-- The outcome of an operation is a next state: its effect, or the error answered in the state before. -/
theorem State.answer_cases (s t : State) (r : Except OpError State) (h : s.answer r = .next t) :
    r = .ok t ∨ ∃ e, r = .error e ∧ t = s.answered (Response.error e) := by
  cases r with
  | ok u => left; simpa [State.answer] using h
  | error e =>
    right
    refine ⟨e, rfl, ?_⟩
    injection h with h
    exact h.symm

/-- An operation that ends in an error answers it and changes nothing else (60_exceptions.md R407). -/
theorem State.answer_error (s : State) (e : OpError) : s.answer (.error e) = .next (s.answered (Response.error e)) := rfl

/-- An operation that ends without an error answers its effect. -/
theorem State.answer_ok (s t : State) : s.answer (.ok t) = .next t := rfl

/-- A launch the filter denies (41_token_pool.md R256). -/
theorem State.launch_denied (s : State) (i now : Nat) (h : s.filterAllows (s.launchWord i) = false) :
    s.launch i now =
      { s with
        slots := s.slots.modify i (fun sl => { sl with tok := sl.tok.denied }),
        resp := { s.resp with done := some true, result := some .abort } } := by
  simp only [State.launch, h, if_true]
  rfl

/-- A launch the filter allows (41_token_pool.md R251-R255). -/
theorem State.launch_allowed (s : State) (i now : Nat) (h : s.filterAllows (s.launchWord i) = true) :
    s.launch i now =
      { s with
        slots := s.slots.modify i (fun sl =>
          { sl with
            odd := s.nextOdd i,
            tok := sl.tok.launched s.params.cfg (s.nextOdd i) (s.assignSeq i) (s.launchWord i) sl.cache now }),
        seqNext := if (s.assignSeq i).fresh then s.seqNext + 1 else s.seqNext, active := s.active ++ [i],
        mem := s.mem.writeBytes (s.cmdAddr i) (s.launchWord i).bytes,
        submitted := s.submitted ++ [(i, s.launchWord i)],
        resp := { s.resp with done := some false, result := some .notComplete } } := by
  simp only [State.launch, h, Bool.true_eq_false, if_false]
  cases (s.assignSeq i).fresh
  · simp only [Bool.false_eq_true, if_false, State.modSlot, State.writeCmd, State.respond, State.cmdAddr]
  · simp only [if_true, State.modSlot, State.writeCmd, State.respond, State.cmdAddr]

/-- The sequence number of the next launch in slot `i` is the one R253 gives. -/
theorem State.assignSeq_rule (s : State) (i : Nat) (has : Bool) (q : BitVec 32) (fresh : Bool) (h : s.SeqRule i has q fresh) :
    s.assignSeq i = ⟨has, q, fresh⟩ := by
  simp only [State.SeqRule] at h
  simp only [State.assignSeq]
  split at h
  · rename_i hd
    obtain ⟨rfl, rfl, rfl⟩ := h
    rw [if_pos hd]
  · rename_i hd
    obtain ⟨rfl, h⟩ := h
    rw [if_neg hd]
    simp only [State.buddySeq]
    rcases h with ⟨rfl, b, hb, ha, hs, rfl⟩ | ⟨rfl, rfl, hn⟩
    · simp only [hb, ha, hs, and_self, if_true]
    · cases hb : (s.tokAt i).buddy with
      | none => rfl
      | some b =>
        have : ¬ ((s.tokAt b).st = .active ∧ (s.tokAt b).hasSeq = true) := fun x => hn ⟨b, hb, x⟩
        simp only [this, if_false]

/-- A re-write in run state DEAD does nothing (43_timeout_ooo.md R387). -/
theorem State.rewrite_dead (s : State) (j : Nat) (cause : RewriteCause) (now : Nat) (h : s.run = .dead) :
    s.rewrite j cause now = s := by
  rw [State.rewrite, if_pos h]

/-- A re-write: the wire word written again, the issue time, the event, and nothing else (43_timeout_ooo.md R360). -/
theorem State.rewrite_eq (s : State) (j : Nat) (cause : RewriteCause) (now : Nat) (h : s.run ≠ .dead) :
    s.rewrite j cause now =
      { s with
        slots := s.slots.modify j (fun sl => { sl with tok := { sl.tok with issueTime := now } }),
        mem := s.mem.writeBytes (s.cmdAddr j) (s.tokAt j).wire.bytes,
        submitted := s.submitted ++ [(j, (s.tokAt j).wire)],
        resp := { s.resp with events := s.resp.events ++ [.rewrite j cause] } } := by
  simp only [State.rewrite, if_neg h, State.resend, State.writeCmd, State.modTok, State.modSlot, State.emit]

/-- The end of a POLL: a terminal result makes the token DONE and takes it off the active list
(42_status_decoder.md R281). -/
theorem State.finish_cases (s : State) (i : Nat) :
    ((s.tokAt i).result = .notComplete ∧ s.finish i = s.respond false .notComplete)
    ∨ ((s.tokAt i).result ≠ .notComplete ∧ s.finish i =
        { s with
          slots := s.slots.modify i (fun sl => { sl with tok := { sl.tok with st := .done } }),
          active := s.active.filter (fun j => j != i),
          resp := { s.resp with done := some true, result := some (s.tokAt i).result } }) := by
  by_cases h : (s.tokAt i).result = .notComplete
  · left; exact ⟨h, by simp only [State.finish, h, if_true]⟩
  · right
    refine ⟨h, ?_⟩
    simp only [State.finish, h, if_false, State.modTok, State.modSlot, State.respond]

end Sys2Proof.Machine
end

