-- ==== Sys2Proof/Laws/PerInstr.lean ====
section
/-! SUPPORT. One fact per instruction: the first byte of its encoding is its row's code in
spec/opcode_table.json (30_encoding.md R131, R160). -/

namespace Sys2Proof.Laws.FirstByte

open Sys2Proof

/-- The bytes of a request. -/
def bytesOf : Request → List Byte
  | .hostOp bs => bs
  | .command bs => bs

/-- The code of an instruction's row: the opcode of a command (R131), the op code of a host operation (R160). -/
def code : Instr → Byte
  | .null _ _ => 0x00
  | .getReg _ _ _ => 0x01
  | .putReg _ _ _ _ => 0x02
  | .cmdReset _ _ => 0x03
  | .seqRead _ _ _ _ => 0x04
  | .pageRead _ _ _ _ _ => 0x05
  | .pageWrite _ _ _ _ _ _ _ => 0x06
  | .extRead _ _ _ _ _ => 0x07
  | .extWrite _ _ _ _ _ _ _ => 0x08
  | .trim _ _ _ _ => 0x09
  | .devStats _ _ _ _ => 0x0A
  | .devPassthru _ _ _ _ _ => 0x0B
  | .copy _ _ _ _ => 0x0C
  | .fwNull _ _ _ _ => 0x0D
  | .shutdown _ _ => 0x0E
  | .startup _ _ _ _ => 0x0F
  | .traceCtrl _ _ _ _ => 0x10
  | .test _ _ _ _ => 0x11
  | .seqAdvance _ _ _ => 0x12
  | .debugLog _ _ _ _ => 0x13
  | .extError _ _ _ _ => 0x14
  | .fwDownload _ _ _ _ => 0x15
  | .getParams _ _ _ _ => 0x16
  | .setParams _ _ _ _ => 0x17
  | .crashLog _ _ _ _ => 0x18
  | .testRead _ _ _ _ => 0x19
  | .testWrite _ _ _ _ => 0x1A
  | .sataReinit _ _ => 0x1B
  | .cancel _ _ _ => 0x1C
  | .faultInject _ _ _ _ => 0x1D
  | .diagnostic _ _ _ _ => 0x1E
  | .opReset => 0x00
  | .encBuild _ => 0x01
  | .encFinalize _ _ _ _ _ _ => 0x02
  | .alloc _ _ => 0x03
  | .allocId _ _ => 0x04
  | .build _ _ => 0x05
  | .issue _ _ _ _ => 0x06
  | .statusRefresh _ _ => 0x07
  | .poll _ _ => 0x08
  | .reissue _ _ _ => 0x09
  | .detach _ => 0x0A
  | .release _ => 0x0B

/-- The first byte an instruction is encoded to in the reference layout is its row's code. -/
def Statement (i : Instr) : Prop := (bytesOf (encode Layout.reference i)).head? = some (code i)

/-- The low byte of an appended word. -/
theorem append_byte (x : BitVec 56) (y : Byte) : (x ++ y).extractLsb' 0 8 = y := by
  apply BitVec.eq_of_getLsbD_eq
  intro i hi
  rw [BitVec.getLsbD_extractLsb', BitVec.getLsbD_append]
  simp [hi]

/-- The first byte of a Command Word of the reference layout is its opcode field (30_encoding.md R112). -/
theorem joinParts_head (p : Parts) : (joinParts Layout.reference p).bytes.head? = some p.opc := by
  rw [joinParts_reference]
  exact congrArg some (append_byte _ p.opc)

/-- A command is encoded to its fields, whose opcode field holds its row's code. -/
theorem command_head (i : Instr) (p : Parts) (hp : i.parts Layout.reference = some p) (ho : i.opBytes = none)
    (hc : p.opc = code i) : Statement i := by
  rw [Statement, encode, ho, hp, ← hc]
  exact joinParts_head p

theorem null (h : CmdHdr) (st : Stamp) : Statement (.null h st) := command_head _ _ rfl rfl rfl
theorem getReg (h : CmdHdr) (reg : BitVec 56) (st : Stamp) : Statement (.getReg h reg st) := command_head _ _ rfl rfl rfl
theorem putReg (h : CmdHdr) (value : BitVec 56) (reg : BitVec 56) (st : Stamp) : Statement (.putReg h value reg st) := command_head _ _ rfl rfl rfl
theorem cmdReset (h : CmdHdr) (st : Stamp) : Statement (.cmdReset h st) := command_head _ _ rfl rfl rfl
theorem seqRead (h : CmdHdr) (src : BitVec 56) (dst : BitVec 56) (st : Stamp) : Statement (.seqRead h src dst st) := command_head _ _ rfl rfl rfl
theorem pageRead (h : CmdHdr) (lba : BitVec 56) (bcnt : Byte) (coreBuf : Byte) (st : Stamp) : Statement (.pageRead h lba bcnt coreBuf st) := command_head _ _ rfl rfl rfl
theorem pageWrite (h : CmdHdr) (wbuf0 : Byte) (bcnt : Byte) (wbuf1 : Byte) (wbuf2 : Byte) (lba : BitVec 56) (st : Stamp) : Statement (.pageWrite h wbuf0 bcnt wbuf1 wbuf2 lba st) := command_head _ _ rfl rfl rfl
theorem extRead (h : CmdHdr) (lba : BitVec 56) (bcnt : Byte) (coreBuf : Byte) (st : Stamp) : Statement (.extRead h lba bcnt coreBuf st) := command_head _ _ rfl rfl rfl
theorem extWrite (h : CmdHdr) (wbuf0 : Byte) (bcnt : Byte) (wbuf1 : Byte) (wbuf2 : Byte) (lba : BitVec 56) (st : Stamp) : Statement (.extWrite h wbuf0 bcnt wbuf1 wbuf2 lba st) := command_head _ _ rfl rfl rfl
theorem trim (h : CmdHdr) (lba : BitVec 56) (count : BitVec 32) (st : Stamp) : Statement (.trim h lba count st) := command_head _ _ rfl rfl rfl
theorem devStats (h : CmdHdr) (src : BitVec 56) (dst : BitVec 56) (st : Stamp) : Statement (.devStats h src dst st) := command_head _ _ rfl rfl rfl
theorem devPassthru (h : CmdHdr) (wbuf0 : Byte) (coreBuf : Byte) (cdb : BitVec 128) (st : Stamp) : Statement (.devPassthru h wbuf0 coreBuf cdb st) := command_head _ _ rfl rfl rfl
theorem copy (h : CmdHdr) (src : BitVec 56) (dst : BitVec 56) (st : Stamp) : Statement (.copy h src dst st) := command_head _ _ rfl rfl rfl
theorem fwNull (h : CmdHdr) (src : BitVec 56) (dst : BitVec 56) (st : Stamp) : Statement (.fwNull h src dst st) := command_head _ _ rfl rfl rfl
theorem shutdown (h : CmdHdr) (st : Stamp) : Statement (.shutdown h st) := command_head _ _ rfl rfl rfl
theorem startup (h : CmdHdr) (src : BitVec 56) (dst : BitVec 56) (st : Stamp) : Statement (.startup h src dst st) := command_head _ _ rfl rfl rfl
theorem traceCtrl (h : CmdHdr) (src : BitVec 56) (dst : BitVec 56) (st : Stamp) : Statement (.traceCtrl h src dst st) := command_head _ _ rfl rfl rfl
theorem test (h : CmdHdr) (src : BitVec 56) (dst : BitVec 56) (st : Stamp) : Statement (.test h src dst st) := command_head _ _ rfl rfl rfl
theorem seqAdvance (h : CmdHdr) (seqCount : BitVec 56) (st : Stamp) : Statement (.seqAdvance h seqCount st) := command_head _ _ rfl rfl rfl
theorem debugLog (h : CmdHdr) (src : BitVec 56) (dst : BitVec 56) (st : Stamp) : Statement (.debugLog h src dst st) := command_head _ _ rfl rfl rfl
theorem extError (h : CmdHdr) (src : BitVec 56) (dst : BitVec 56) (st : Stamp) : Statement (.extError h src dst st) := command_head _ _ rfl rfl rfl
theorem fwDownload (h : CmdHdr) (src : BitVec 56) (dst : BitVec 56) (st : Stamp) : Statement (.fwDownload h src dst st) := command_head _ _ rfl rfl rfl
theorem getParams (h : CmdHdr) (param : BitVec 32) (coreBuf : Byte) (st : Stamp) : Statement (.getParams h param coreBuf st) := command_head _ _ rfl rfl rfl
theorem setParams (h : CmdHdr) (wbuf0 : Byte) (param : BitVec 32) (st : Stamp) : Statement (.setParams h wbuf0 param st) := command_head _ _ rfl rfl rfl
theorem crashLog (h : CmdHdr) (src : BitVec 56) (dst : BitVec 56) (st : Stamp) : Statement (.crashLog h src dst st) := command_head _ _ rfl rfl rfl
theorem testRead (h : CmdHdr) (src : BitVec 56) (dst : BitVec 56) (st : Stamp) : Statement (.testRead h src dst st) := command_head _ _ rfl rfl rfl
theorem testWrite (h : CmdHdr) (src : BitVec 56) (dst : BitVec 56) (st : Stamp) : Statement (.testWrite h src dst st) := command_head _ _ rfl rfl rfl
theorem sataReinit (h : CmdHdr) (st : Stamp) : Statement (.sataReinit h st) := command_head _ _ rfl rfl rfl
theorem cancel (h : CmdHdr) (target : Byte) (st : Stamp) : Statement (.cancel h target st) := command_head _ _ rfl rfl rfl
theorem faultInject (h : CmdHdr) (src : BitVec 56) (dst : BitVec 56) (st : Stamp) : Statement (.faultInject h src dst st) := command_head _ _ rfl rfl rfl
theorem diagnostic (h : CmdHdr) (src : BitVec 56) (dst : BitVec 56) (st : Stamp) : Statement (.diagnostic h src dst st) := command_head _ _ rfl rfl rfl
theorem opReset : Statement .opReset := rfl
theorem encBuild (req : BuildReq) : Statement (.encBuild req) := rfl
theorem encFinalize (w : CmdWord) (odd : BitVec 1) (slot : Byte) (seq : BitVec 32) (dealloc : Option (BitVec 5)) (xsum : BitVec 128) : Statement (.encFinalize w odd slot seq dealloc xsum) := rfl
theorem alloc (kind : Byte) (carry : Nat) : Statement (.alloc kind carry) := rfl
theorem allocId (slot : Nat) (kind : Byte) : Statement (.allocId slot kind) := rfl
theorem build (slot : Nat) (req : BuildReq) : Statement (.build slot req) := rfl
theorem issue (slot : Nat) (dealloc : Option (BitVec 5)) (xsum : BitVec 128) (now : Nat) : Statement (.issue slot dealloc xsum now) := rfl
theorem statusRefresh (t : TokenType) (now : Nat) : Statement (.statusRefresh t now) := rfl
theorem poll (slot : Nat) (now : Nat) : Statement (.poll slot now) := rfl
theorem reissue (slot : Nat) (req : Option BuildReq) (now : Nat) : Statement (.reissue slot req now) := rfl
theorem detach (slot : Nat) : Statement (.detach slot) := rfl
theorem release (slot : Nat) : Statement (.release slot) := rfl

end Sys2Proof.Laws.FirstByte
end

