-- ==== Sys2Proof/Laws/Poll.lean ====
section
/-! SUPPORT. POLL as one rewriting of a slot: the normal form of a state in the middle of an operation, what
each named operation does to it, and the poll of a fresh status byte brought into it. -/

namespace Sys2Proof.Machine

open Sys2Proof

/-- A state in the middle of an operation on slot `i`: the slot's value, the statistics and the events so far. -/
def State.onSlot (s : State) (i : Nat) (sl : Slot) (st : Stats) (ev : List Event) : State :=
  { s with slots := s.slots.set i sl, stats := st, resp := { Response.empty with events := ev } }

section
variable (s : State) (i : Nat) (sl : Slot) (st : Stats) (ev : List Event)

theorem State.onSlot_start (h : i < s.numSlots) : s.begin = s.onSlot i (s.slotAt i) s.stats [] := by
  have h' : i < s.slots.length := h
  simp only [State.begin, State.onSlot]
  rw [State.slotAt_eq_getElem s i h', List.set_getElem_self]; rfl

@[simp] theorem State.onSlot_slotAt (h : i < s.numSlots) : (s.onSlot i sl st ev).slotAt i = sl := by
  have h' : i < s.slots.length := h
  simp [State.onSlot, State.slotAt, List.getD_eq_getElem?_getD, h']
@[simp] theorem State.onSlot_tokAt (h : i < s.numSlots) : (s.onSlot i sl st ev).tokAt i = sl.tok := by
  simp only [State.tokAt, State.onSlot_slotAt s i sl st ev h]
@[simp] theorem State.onSlot_numSlots : (s.onSlot i sl st ev).numSlots = s.numSlots := by simp [State.onSlot, State.numSlots]
@[simp] theorem State.onSlot_params : (s.onSlot i sl st ev).params = s.params := rfl
@[simp] theorem State.onSlot_run : (s.onSlot i sl st ev).run = s.run := rfl
@[simp] theorem State.onSlot_mem : (s.onSlot i sl st ev).mem = s.mem := rfl
@[simp] theorem State.onSlot_readExt : (s.onSlot i sl st ev).readExt i = s.readExt i := rfl
@[simp] theorem State.onSlot_ttype (j : Nat) : (s.onSlot i sl st ev).ttype j = s.ttype j := by simp [State.ttype]
@[simp] theorem State.onSlot_refreshTime (t : TokenType) : (s.onSlot i sl st ev).refreshTime t = s.refreshTime t := by cases t <;> rfl
@[simp] theorem State.onSlot_modSlot (f : Slot → Slot) : (s.onSlot i sl st ev).modSlot i f = s.onSlot i (f sl) st ev := by
  simp only [State.modSlot, State.onSlot]
  congr 1
  rw [List.modify_eq_set_getElem?]
  by_cases h : i < s.slots.length
  · simp [h]
  · have e : ∀ v, s.slots.set i v = s.slots := fun v => List.set_eq_of_length_le (by omega)
    simp [e, h]
@[simp] theorem State.onSlot_modTok (f : Token → Token) : (s.onSlot i sl st ev).modTok i f = s.onSlot i { sl with tok := f sl.tok } st ev := by
  simp only [State.modTok, State.onSlot_modSlot]
@[simp] theorem State.onSlot_modCtr (f : RetryCtr → RetryCtr) : (s.onSlot i sl st ev).modCtr i f = s.onSlot i { sl with ctr := f sl.ctr } st ev := by
  simp only [State.modCtr, State.onSlot_modSlot]
@[simp] theorem State.onSlot_setResult (r : Result) (w : Reason) :
  (s.onSlot i sl st ev).setResult i r w = s.onSlot i { sl with tok := { sl.tok with result := r, why := some w } } st ev := by
  simp only [State.setResult, State.onSlot_modTok]
@[simp] theorem State.onSlot_count (f : Stats → Stats) : (s.onSlot i sl st ev).count f = s.onSlot i sl (f st) ev := rfl
@[simp] theorem State.onSlot_emit (e : Event) : (s.onSlot i sl st ev).emit e = s.onSlot i sl st (ev ++ [e]) := rfl
@[simp] theorem State.onSlot_atTime (n : Nat) : (s.onSlot i sl st ev).atTime n = (s.atTime n).onSlot i sl st ev := rfl
@[simp] theorem State.onSlot_abortHard (w : Reason) :
  (s.onSlot i sl st ev).abortHard i w = ({ s with run := .dead }).onSlot i { sl with tok := { sl.tok with result := .abortHard, why := some w } } st (ev ++ [Event.halted i w]) := by
  simp only [State.abortHard, State.onSlot_setResult]; rfl

theorem slots_modify_eq_set {α : Type} (l : List α) (i : Nat) (h : i < l.length) (f : α → α) (d : α) : l.modify i f = l.set i (f (l.getD i d)) := by
  rw [List.modify_eq_set_getElem?]; simp [h]

theorem State.finish_concluded (now : Nat) (h : i < s.numSlots) (hr : sl.tok.result ≠ .notComplete)
   (ho : sl.odd = (s.slotAt i).odd) (hc : sl.cache = (s.slotAt i).cache) :
   (({ s with lastNow := now } : State).onSlot i sl st ev).finish i = s.concluded i now sl.tok sl.ctr st ev := by
  have h' : i < s.slots.length := h
  simp only [State.finish, State.onSlot_tokAt ({ s with lastNow := now } : State) i sl st ev h, if_neg hr, State.onSlot_modTok]
  simp only [State.onSlot, State.respond, State.concluded, Response.ofToken, slots_modify_eq_set s.slots i h' _ Slot.reset]
  have e : s.slots.getD i Slot.reset = s.slotAt i := rfl
  rw [e, ← ho, ← hc]

theorem State.finish_pending (now : Nat) (h : i < s.numSlots) (hr : sl.tok.result = .notComplete)
   (ho : sl.odd = (s.slotAt i).odd) (hc : sl.cache = (s.slotAt i).cache) (hk : sl.ctr = (s.slotAt i).ctr) :
   (({ s with lastNow := now } : State).onSlot i sl st ev).finish i = s.pending i now sl.tok st ev := by
  have h' : i < s.slots.length := h
  simp only [State.finish, State.onSlot_tokAt ({ s with lastNow := now } : State) i sl st ev h, if_pos hr]
  simp only [State.onSlot, State.respond, State.pending, Response.ofToken, slots_modify_eq_set s.slots i h' _ Slot.reset]
  have e : s.slots.getD i Slot.reset = s.slotAt i := rfl
  rw [e, ← ho, ← hc, ← hk]

/-- The last part of POLL, after the decode of the status byte (42_status_decoder.md R280). -/
def State.pollRest (s : State) (i now : Nat) : State :=
  ((s.whilePending i fun s => s.lostCheck i now).whilePending i fun s => s.timeoutCheck i now).finish i

/-- POLL of a fresh byte: the decode of the observed token, then the rest (42_status_decoder.md R280-R285). -/
theorem State.poll_fresh (now : Nat) (b : Byte) (h : s.Fresh i now b) :
    exec (.poll i now) s = .next
      ((((({ s with lastNow := now } : State).onSlot i { s.slotAt i with tok := { s.tokAt i with
        lastStatus := some b, extCache := none, touchedTime := some now } } s.stats.changed
        [.statusChanged i b]).decodeStatus i b now)).pollRest i now) := by
  obtain ⟨⟨h1, h2⟩, ⟨h3, h4⟩, ⟨h5, h6⟩, h7⟩ := h
  have e1 : ¬ s.numSlots ≤ i := by omega
  have e2 : ¬ now < s.lastNow := by omega
  have h1' : i < ({ s with lastNow := now } : State).numSlots := h1
  have h5' : (s.begin.atTime now).changedStatus i = some b := by simp [State.changedStatus, h5, h6]
  have ho : (s.begin.atTime now).observe i b now = ({ s with lastNow := now } : State).onSlot i { s.slotAt i with
      tok := { s.tokAt i with lastStatus := some b, extCache := none, touchedTime := some now } } s.stats.changed
      [.statusChanged i b] := by
    rw [State.onSlot_start s i h1, State.onSlot_atTime]
    simp only [State.observe, State.onSlot_modTok, State.onSlot_count, State.onSlot_emit]
    rfl
  have hp : (s.begin.atTime now).pollStatus i now = (({ s with lastNow := now } : State).onSlot i { s.slotAt i with
      tok := { s.tokAt i with lastStatus := some b, extCache := none, touchedTime := some now } } s.stats.changed
      [.statusChanged i b]).decodeStatus i b now := by
    simp only [State.pollStatus, h5', ho]
    rw [State.onSlot_tokAt _ i _ _ _ h1', State.onSlot_params, if_pos h7]
  have hk : s.begin.opPoll i now = .ok ((s.begin.atTime now).pollActive i now) := by
    unfold State.opPoll
    rw [if_neg (by simpa using e1), if_neg (by simpa using e2), if_neg (by simp [h3]), if_neg (by simp [h3])]
  have hq : (s.begin.atTime now).pollActive i now = ((s.begin.atTime now).pollStatus i now).pollRest i now := by
    simp only [State.pollActive, State.pollRest]
  simp only [exec, execPoll, hk, State.answer, hq, hp]

/-- Slot `i` with another token and other retry counters. -/
abbrev State.slotWith (s : State) (i : Nat) (tok : Token) (ctr : RetryCtr) : Slot :=
  { s.slotAt i with tok := tok, ctr := ctr }

/-- The rest of POLL once the result is terminal: nothing but the finish (42_status_decoder.md R280, R281). -/
theorem State.pollRest_concluded (now : Nat) (tok : Token) (ctr : RetryCtr) (h : i < s.numSlots)
    (hr : tok.result ≠ .notComplete) :
    (({ s with lastNow := now } : State).onSlot i (s.slotWith i tok ctr) st ev).pollRest i now
      = s.concluded i now tok ctr st ev := by
  have h' : i < ({ s with lastNow := now } : State).numSlots := h
  have e : ∀ f, (({ s with lastNow := now } : State).onSlot i (s.slotWith i tok ctr) st ev).whilePending i f
      = ({ s with lastNow := now } : State).onSlot i (s.slotWith i tok ctr) st ev := by
    intro f; rw [State.whilePending, State.onSlot_tokAt _ i _ st ev h', if_neg hr]
  rw [State.pollRest, e, e, State.finish_concluded s i (s.slotWith i tok ctr) st ev now h hr rfl rfl]

/-- The rest of POLL once the device has halted (60_exceptions.md R410). -/
theorem State.pollRest_halted (now : Nat) (tok : Token) (ctr : RetryCtr) (h : i < s.numSlots)
    (hr : tok.result ≠ .notComplete) :
    (({ s with lastNow := now, run := .dead } : State).onSlot i (s.slotWith i tok ctr) st ev).pollRest i now
      = { s.concluded i now tok ctr st ev with run := .dead } := by
  have e := State.pollRest_concluded { s with run := .dead } i st ev now tok ctr h hr
  exact e

/-- The rest of POLL while the command is pending, with no re-write due and no deadline passed: nothing but the
finish (42_status_decoder.md R280, R281). -/
theorem State.pollRest_pending (now : Nat) (tok : Token) (h : i < s.numSlots) (hr : tok.result = .notComplete)
    (hl : tok.looksLost s.params.cfg now = false ∨ s.run = .dead) (hd : tok.elapsed now = false) :
    (({ s with lastNow := now } : State).onSlot i { s.slotAt i with tok := tok } st ev).pollRest i now
      = s.pending i now tok st ev := by
  have h' : i < ({ s with lastNow := now } : State).numSlots := h
  have e1 : (({ s with lastNow := now } : State).onSlot i { s.slotAt i with tok := tok } st ev).lostCheck i now
      = ({ s with lastNow := now } : State).onSlot i { s.slotAt i with tok := tok } st ev := by
    rw [State.lostCheck, State.onSlot_tokAt _ i _ st ev h', if_neg]
    rintro ⟨a, b⟩
    rcases hl with hl | hl
    · exact absurd (hl.symm.trans a) (by decide)
    · exact b hl
  have e2 : (({ s with lastNow := now } : State).onSlot i { s.slotAt i with tok := tok } st ev).timeoutCheck i now
      = ({ s with lastNow := now } : State).onSlot i { s.slotAt i with tok := tok } st ev := by
    rw [State.timeoutCheck, State.onSlot_tokAt _ i _ st ev h', if_neg (by simp [hd])]
  rw [State.pollRest]
  simp only [State.whilePending, State.onSlot_tokAt _ i _ st ev h', hr, if_true, e1, e2]
  exact State.finish_pending s i { s.slotAt i with tok := tok } st ev now h hr rfl rfl rfl

/-- `unknown_hw` off the halting configuration (42_status_decoder.md R322). -/
theorem State.onSlot_unknownHw_abort (h : i < s.numSlots)
    (hx : ¬ (s.params.cfg.haltOnWriteError = true ∧ sl.tok.cls = .write)) :
    (s.onSlot i sl st ev).unknownHw i
      = s.onSlot i { sl with tok := { sl.tok with result := .abort, why := some .unknownHw } }
          { st with unknownHw := st.unknownHw + 1 } ev := by
  rw [State.unknownHw, State.onSlot_count, State.onSlot_tokAt _ i _ _ _ h, State.onSlot_params, if_neg hx,
    State.onSlot_setResult]

/-- `unknown_hw` of a write when the configuration halts on write errors (42_status_decoder.md R322). -/
theorem State.onSlot_unknownHw_halt (h : i < s.numSlots)
    (hx : s.params.cfg.haltOnWriteError = true ∧ sl.tok.cls = .write) :
    (s.onSlot i sl st ev).unknownHw i
      = ({ s with run := .dead } : State).onSlot i
          { sl with tok := { sl.tok with result := .abortHard, why := some .unknownHw } }
          { st with unknownHw := st.unknownHw + 1 } (ev ++ [.halted i .unknownHw]) := by
  rw [State.unknownHw, State.onSlot_count, State.onSlot_tokAt _ i _ _ _ h, State.onSlot_params, if_pos hx,
    State.onSlot_abortHard]

/-- A token touched now does not look lost (43_timeout_ooo.md R362). -/
theorem Token.looksLost_touched (t : Token) (c : Cfg) (now : Nat) (h : t.touchedTime = some now) :
    t.looksLost c now = false := by
  simp only [Token.looksLost, h]
  by_cases h1 : now < t.issueTime
  · have : ¬ t.issueTime + c.lostThresh < now := by omega
    simp [this]
  · simp [h1]

/-- The decode of each failure code (42_status_decoder.md R285). -/
def State.decodeCode (s : State) (i : Nat) (b : Byte) (now : Nat) (c : StatusCode) : State :=
  match c with
  | .queued => s.progress i .queued now
  | .received => s.progress i .received now
  | .pending => s.progress i .pending now
  | .sequenced => s.progress i .sequenced now
  | .collision => s.decCollision i
  | .fieldError => s.decFieldError i
  | .illegalCmd => s.decIllegal i b
  | .exeError => s.decExeError i b
  | .eccError => s.decEccError i
  | .unknownHw => s.unknownHw i
  | .xsumError => s.decXsumError i
  | .devWarning => s.decDevWarning i b now
  | .dupError => s.decDupError i
  | .ooo => s.decOoo i b now

/-- The state in which the decode of a fresh byte runs: the byte observed, counted and found fresh (R282, R285). -/
def State.freshSlot (s : State) (i now : Nat) (b : Byte) : State :=
  ({ s with lastNow := now } : State).onSlot i { s.slotAt i with tok := (s.tokAt i).seen b now } s.stats.changed
    [.statusChanged i b]

@[simp] theorem State.freshSlot_params (now : Nat) (b : Byte) : (s.freshSlot i now b).params = s.params := rfl

/-- The decode of a byte starts by clearing the missing mark (42_status_decoder.md R285). -/
theorem State.decode_start (now : Nat) (b : Byte) :
    (({ s with lastNow := now } : State).onSlot i { s.slotAt i with tok := { s.tokAt i with
        lastStatus := some b, extCache := none, touchedTime := some now } } s.stats.changed
        [.statusChanged i b]).modTok i (fun t => { t with oooMissing := false }) = s.freshSlot i now b := by
  rw [State.onSlot_modTok]; rfl

/-- POLL of a fresh failure byte: the decode of its code, then the rest. -/
theorem State.poll_code (now : Nat) (b : Byte) (c : StatusCode) (h : s.FreshCode i now b c) :
    exec (.poll i now) s = .next (((s.freshSlot i now b).decodeCode i b now c).pollRest i now) := by
  obtain ⟨h, hs, hc⟩ := h
  rw [State.poll_fresh s i now b h, State.decodeStatus, State.decode_start]
  simp only [State.freshSlot_params, hs, hc, Bool.false_eq_true, if_false]
  cases c <;> rfl

/-- POLL of a fresh success byte. -/
theorem State.poll_success (now : Nat) (b : Byte) (h : s.Fresh i now b) (hs : s.params.layout.stSuccess b = true) :
    exec (.poll i now) s = .next (((s.freshSlot i now b).success i b).pollRest i now) := by
  rw [State.poll_fresh s i now b h, State.decodeStatus, State.decode_start]
  simp only [State.freshSlot_params, hs, if_true]

/-- POLL of a fresh byte whose code names no failure. -/
theorem State.poll_reserved (now : Nat) (b : Byte) (h : s.Fresh i now b) (hs : s.params.layout.stSuccess b = false)
    (hc : s.params.layout.statusOf (s.params.layout.stCode b) = none) :
    exec (.poll i now) s = .next (((s.freshSlot i now b).decReserved i).pollRest i now) := by
  rw [State.poll_fresh s i now b h, State.decodeStatus, State.decode_start]
  simp only [State.freshSlot_params, hs, hc, Bool.false_eq_true, if_false]

/-- The events of `free_wbufs` by the list it frees (42_status_decoder.md R291). -/
theorem Token.freeEvents_eq (t : Token) (i : Nat) :
    t.freeEvents i = if t.wbufIds = [] then [] else [.wrBufFree i t.wbufIds] := rfl

/-- Freeing the write buffers of the slot an operation stands on (42_status_decoder.md R291). -/
theorem State.onSlot_freeWbufs (h : i < s.numSlots) :
    (s.onSlot i sl st ev).freeWbufs i = s.onSlot i { sl with tok := sl.tok.freed } st (ev ++ sl.tok.freeEvents i) := by
  rw [State.freeWbufs, State.onSlot_tokAt s i sl st ev h]
  by_cases hw : sl.tok.wbufIds = []
  · have q := hw
    simp only [Token.wbufIds, List.append_eq_nil_iff, Option.toList_eq_nil_iff] at q
    have e : sl.tok.freed = sl.tok := by
      obtain ⟨⟨q0, q1⟩, q2⟩ := q
      cases hs : sl.tok
      simp only [hs] at q0 q1 q2
      simp only [Token.freed, q0, q1, q2]
    simp only [hw, if_true, Token.freeEvents_eq, e, List.append_nil]
  · simp only [if_neg hw, State.onSlot_emit, State.onSlot_modTok, Token.freeEvents_eq]
    rfl

/-- Re-writing the command of the slot an operation stands on (43_timeout_ooo.md R360). -/
theorem State.onSlot_rewrite (cause : RewriteCause) (now : Nat) (h : i < s.numSlots) (hr : s.run ≠ .dead) :
    (s.onSlot i sl st ev).rewrite i cause now
      = (s.writeCmd i sl.tok.wire).onSlot i { sl with tok := { sl.tok with issueTime := now } } st
          (ev ++ [.rewrite i cause]) := by
  have e : ((s.onSlot i sl st ev).writeCmd i sl.tok.wire) = (s.writeCmd i sl.tok.wire).onSlot i sl st ev := by
    simp only [State.writeCmd, State.onSlot, State.cmdAddr]
  rw [State.rewrite, if_neg (by exact hr), State.resend, State.onSlot_tokAt s i sl st ev h, e, State.onSlot_modTok,
    State.onSlot_emit]

/-- A slot that shows no new status byte (42_status_decoder.md R282). -/
theorem State.changedStatus_none (hu : s.Unchanged i) : s.changedStatus i = none := by
  rw [State.changedStatus]
  split
  · rfl
  · rename_i b hb
    rcases hu with hu | hu
    · exact absurd (hu.symm.trans hb) (by simp)
    · rw [if_pos (hu.symm.trans hb)]

/-- POLL of an active token whose status byte is not new: only the rest of it (42_status_decoder.md R280, R282). -/
theorem State.poll_unchanged (now : Nat) (ha : s.Accepts i now) (hp : s.Polling i) (hu : s.Unchanged i) :
    exec (.poll i now) s
      = .next ((({ s with lastNow := now } : State).onSlot i (s.slotAt i) s.stats []).pollRest i now) := by
  obtain ⟨h1, h2⟩ := ha
  have e1 : ¬ s.numSlots ≤ i := by omega
  have e2 : ¬ now < s.lastNow := by omega
  have hc : (s.begin.atTime now).changedStatus i = none := State.changedStatus_none _ i hu
  have hk : s.begin.opPoll i now = .ok ((s.begin.atTime now).pollActive i now) := by
    unfold State.opPoll
    rw [if_neg (by simpa using e1), if_neg (by simpa using e2), if_neg (by simp [hp.1]), if_neg (by simp [hp.1])]
  have hq : (s.begin.atTime now).pollActive i now = (s.begin.atTime now).pollRest i now := by
    simp only [State.pollActive, State.pollRest, State.pollStatus, hc]
  have hs : s.begin.atTime now = ({ s with lastNow := now } : State).onSlot i (s.slotAt i) s.stats [] := by
    rw [State.onSlot_start s i h1, State.onSlot_atTime]
    rfl
  simp only [exec, execPoll, hk, State.answer]
  rw [hq, hs]

/-- The rest of POLL while the command is pending and no re-write is due: the timeout check and the finish. -/
theorem State.pollRest_elapsed (now : Nat) (tok : Token) (h : i < s.numSlots) (hr : tok.result = .notComplete)
    (hl : tok.looksLost s.params.cfg now = false ∨ s.run = .dead) (hd : tok.elapsed now = true) :
    (({ s with lastNow := now } : State).onSlot i { s.slotAt i with tok := tok } st ev).pollRest i now
      = ((({ s with lastNow := now } : State).onSlot i { s.slotAt i with tok := tok } st ev).timeoutHandle i now).finish i := by
  have h' : i < ({ s with lastNow := now } : State).numSlots := h
  have e1 : (({ s with lastNow := now } : State).onSlot i { s.slotAt i with tok := tok } st ev).lostCheck i now
      = ({ s with lastNow := now } : State).onSlot i { s.slotAt i with tok := tok } st ev := by
    rw [State.lostCheck, State.onSlot_tokAt _ i _ st ev h', if_neg]
    rintro ⟨a, b⟩
    rcases hl with hl | hl
    · exact absurd (hl.symm.trans a) (by decide)
    · exact b hl
  rw [State.pollRest]
  simp only [State.whilePending, State.onSlot_tokAt _ i _ st ev h', hr, if_true, e1, State.timeoutCheck, hd]

/-! Events put before: what the steps after the decode do does not depend on the events so far. -/

variable (evs : List Event)

theorem State.withEvents_emit (e : Event) : (s.withEvents evs).emit e = (s.emit e).withEvents evs := by
  simp only [State.withEvents, State.emit, List.append_assoc]
theorem State.withEvents_modTok (f : Token → Token) : (s.withEvents evs).modTok i f = (s.modTok i f).withEvents evs := rfl
theorem State.withEvents_count (f : Stats → Stats) : (s.withEvents evs).count f = (s.count f).withEvents evs := rfl
theorem State.withEvents_setResult (r : Result) (w : Reason) :
    (s.withEvents evs).setResult i r w = (s.setResult i r w).withEvents evs := rfl
theorem State.withEvents_rewrite (cause : RewriteCause) (now : Nat) :
    (s.withEvents evs).rewrite i cause now = (s.rewrite i cause now).withEvents evs := by
  rw [State.rewrite, State.rewrite, State.resend, State.resend, apply_ite (State.withEvents · evs), ← State.withEvents_emit]
  rfl

/-- The lost-command check (43_timeout_ooo.md R362). -/
theorem State.withEvents_lostCheck (now : Nat) :
    (s.withEvents evs).lostCheck i now = (s.lostCheck i now).withEvents evs := by
  simp only [State.lostCheck, State.withEvents_rewrite, State.withEvents_modTok, State.withEvents_count,
    apply_ite (State.withEvents · evs)]
  rfl

/-- The recovery of read buffers (43_timeout_ooo.md R373). -/
theorem State.withEvents_recover (now : Nat) : (s.withEvents evs).recover i now = (s.recover i now).withEvents evs := by
  rw [State.recover, State.withEvents_emit]; rfl

/-- The expected timeout (43_timeout_ooo.md R375). -/
theorem State.withEvents_oooTimeout (now : Nat) :
    (s.withEvents evs).oooTimeout i now = (s.oooTimeout i now).withEvents evs := by
  rw [State.oooTimeout, State.withEvents_rewrite, State.withEvents_count, State.oooTimeout, apply_ite (State.withEvents · evs)]
  rfl

/-- The real timeout (43_timeout_ooo.md R376). -/
theorem State.withEvents_realTimeout : (s.withEvents evs).realTimeout i = (s.realTimeout i).withEvents evs := by
  rw [State.realTimeout, State.realTimeout]
  by_cases h : (s.tokAt i).quiet = true
  · rw [if_pos h, if_pos (by exact h)]; rfl
  · rw [if_neg h, if_neg (by exact h), State.withEvents_emit]; rfl

/-- The timeout check (43_timeout_ooo.md R370). -/
theorem State.withEvents_timeoutCheck (now : Nat) :
    (s.withEvents evs).timeoutCheck i now = (s.timeoutCheck i now).withEvents evs := by
  simp only [State.timeoutCheck, State.timeoutHandle, State.withEvents_recover, State.withEvents_oooTimeout,
    State.withEvents_realTimeout, State.withEvents_count, apply_ite (State.withEvents · evs)]
  rfl

/-- The finish of a POLL (42_status_decoder.md R281). -/
theorem State.withEvents_finish : (s.withEvents evs).finish i = (s.finish i).withEvents evs := by
  simp only [State.finish, apply_ite (State.withEvents · evs)]
  rfl

/-- The steps of POLL after the decode (42_status_decoder.md R280). -/
theorem State.withEvents_pollRest (now : Nat) :
    (s.withEvents evs).pollRest i now = (s.pollRest i now).withEvents evs := by
  have w : ∀ (u : State) (f : State → State), (f (u.withEvents evs) = (f u).withEvents evs) →
      (u.withEvents evs).whilePending i f = (u.whilePending i f).withEvents evs := by
    intro u f h
    rw [State.whilePending, State.whilePending, h, apply_ite (State.withEvents · evs)]
    rfl
  have a := w s (fun s => s.lostCheck i now) (State.withEvents_lostCheck s i evs now)
  have b := w (s.whilePending i fun s => s.lostCheck i now) (fun s => s.timeoutCheck i now)
    (State.withEvents_timeoutCheck _ i evs now)
  simp only [State.pollRest, a, b, State.withEvents_finish]

/-- A POLL whose decode leaves the state `u` and the events `evs` goes on as a POLL of `u`. -/
theorem State.pollGoesOn_of_rest (u : State) (now : Nat) (ha : u.Accepts i now) (hp : u.Polling i) (hu : u.Unchanged i)
    (h : exec (.poll i now) s
      = .next (((({ u with lastNow := now } : State).onSlot i (u.slotAt i) u.stats []).withEvents evs).pollRest i now)) :
    s.PollGoesOn u i now evs :=
  ⟨_, State.poll_unchanged u i now ha hp hu, by rw [h, State.withEvents_pollRest]⟩

end
end Sys2Proof.Machine
end

