-- ==== Sys2Proof/Tests/Slice0.lean ====
section
/-! SUPPORT. Tests.  Expected values are those of spec/95_test_vectors.md (E: encoder, F: finalize, T: pool, D:
status decode, O: timeouts) or are written out from the rule named.  The `wit_` theorems show, for each statement
with hypotheses, concrete states and operands that meet them, clause by clause. -/

namespace Sys2Proof.Tests

open Sys2Proof Sys2Proof.Machine

set_option Elab.async false

/-! ### Helpers -/

/-- The state after an outcome, or `d`. -/
def after (d : State) (o : Host.Outcome State Fault Refusal) : State :=
  match o with
  | .next t => t
  | _ => d

/-- Parameters of the test vectors: every command allowed (spec/95_test_vectors.md section 0). -/
def params : Params := { Params.reference with filter := .denying [] }

/-- The state of the test vectors after RESET. -/
def s0 : State := State.resetWith 4 params

/-- The response of an instruction in `s`. -/
def respOf (i : Instr) (s : State) : Response := (after s (exec i s)).resp

/-- The word an instruction answers. -/
def wordOf (i : Instr) (s : State) : Option CmdWord := (respOf i s).word

/-- The error an instruction answers. -/
def errOf (i : Instr) (s : State) : Option OpError := (respOf i s).err

/-- `s0` with token `t` in slot 0, its slot at polarity `t.odd`. -/
def withTok (t : Token) : State := { s0 with slots := s0.slots.set 0 ⟨t, t.odd, RetryCtr.zero, none⟩ }

/-- A token in flight since 100 (the decode setup `S` of section 0). -/
def flying (c : Class) (d : Nat) : Token :=
  { Token.reset with st := .active, result := .notComplete, cls := c, odd := 1, issueTime := 100, armedTime := 100, tmoDur := d }

/-- The token of `S(RD)`. -/
def rd : Token := { flying .read 1000 with devdir := true, hasSeq := true, coreBuf := some 7 }

/-- The token of `S(WR)`. -/
def wr : Token :=
  { flying .write 1500 with devdir := true, hasSeq := true, wbuf0 := some 5, hostLive := true, reqTag := 7, xferFromHost := true }

/-- The token of `S(CT)`. -/
def ct : Token := flying .control 2000

/-- The token of `S(TR)`. -/
def tr : Token := { flying .control 2000 with devdir := true, hasSeq := true }

/-- Slot 0 in flight, its status byte refreshed at 110, its extended status `v`. -/
def shows (t : Token) (b : Byte) (v : Word) : State :=
  { withTok t with
    slots := s0.slots.set 0 ⟨t, t.odd, RetryCtr.zero, some b⟩, active := [0], lastNow := 110, refreshGeneral := some 110,
    mem := s0.mem.writeBytes 0x20000 (wordBytes v) }

/-- The same state with another configuration. -/
def under (s : State) (f : Cfg → Cfg) : State := { s with params := { s.params with cfg := f s.params.cfg } }

/-- The same state with other retry counters in slot 0. -/
def counted (s : State) (k : RetryCtr) : State := s.modCtr 0 fun _ => k

/-- Slot 0 in flight with no status byte refreshed. -/
def silent (t : Token) : State := { withTok t with active := [0], lastNow := 110 }

/-- The token of slot 0 after POLL at `now`. -/
def polled (s : State) (now : Nat) : Token := (after s (exec (.poll 0 now) s)).tokAt 0

/-- A header with `DUPCHK = 1`. -/
def hdr (dir dsize : BitVec 2) : CmdHdr := ⟨dir, 0, 1, dsize, 0⟩

/-- The stamp of a word that is not finalized. -/
def bare : Stamp := ⟨0, 0, 0, none, 0⟩

/-- A Command Word that is not finalized, with its duplicates. -/
def dupWord (w0 w1 w2 : Word) : CmdWord := ⟨w0, w1, w2, w0, w1, w2, 0, 0⟩

/-! ### Well-formedness: one ill-formed term for each check -/

theorem test_wf_dir : (Instr.seqRead (hdr 3 0) 0 0 bare).wf = false := by decide
theorem test_wf_msize : (Instr.seqRead ⟨0, 0, 1, 0, 3⟩ 0 0 bare).wf = false := by decide
theorem test_wf_dsize : (Instr.seqRead (hdr 0 1) 0 0 bare).wf = false := by decide
theorem test_wf_noData : (Instr.null (hdr 2 0) bare).wf = false := by decide
theorem test_wf_d2h : (Instr.getParams (hdr 1 0) 0 0 bare).wf = false := by decide
theorem test_wf_h2d : (Instr.setParams (hdr 2 0) 0 0 bare).wf = false := by decide
theorem test_wf_page : (Instr.pageRead (hdr 2 1) 0 0 0 bare).wf = false := by decide
theorem test_wf_pageCount : (Instr.pageRead (hdr 2 3) 0 8 0 bare).wf = false := by decide
theorem test_wf_extCount : (Instr.extRead (hdr 2 1) 0 3 0 bare).wf = false := by decide
theorem test_wf_extPage : (Instr.extWrite (hdr 1 3) 0 8 0 0 0 bare).wf = false := by decide
theorem test_wf_seqCount : (Instr.seqAdvance (hdr 0 0) 0 bare).wf = false := by decide
theorem test_wf_cdbForm : (Instr.devPassthru ⟨0, 0, 0, 0, 0⟩ 0 0 0x0628 bare).wf = false := by decide
theorem test_wf_cdbPadding : (Instr.devPassthru ⟨0, 0, 0, 0, 0⟩ 0 0 0x010000000000000000000000000006A1 bare).wf = false := by decide
theorem test_wf_cdbProtocol : (Instr.devPassthru ⟨0, 0, 0, 0, 0⟩ 0 0 0x0885 bare).wf = false := by decide
theorem test_wf_duplicatedPassthrough : (Instr.devPassthru (hdr 0 0) 0 0 0x0685 bare).wf = false := by decide
theorem test_wf_accepts : (Instr.extWrite (hdr 1 2) 9 4 10 0xFF 0x3000 bare).wf = true := by decide

/-! ### Layouts (30_encoding.md R117) -/

/-- Another admissible layout: SRC and DST in words 0 and 1, the rest of the header in word 2, the checksum halves and their
MSBs swapped, every code another. -/
def other : Layout where
  opc := ⟨2, 0, 8⟩
  slot := ⟨2, 40, 8⟩
  seq := ⟨2, 8, 32⟩
  dir := ⟨2, 48, 2⟩
  hwOnly := ⟨2, 50, 1⟩
  dupChk := ⟨2, 51, 1⟩
  dsize := ⟨2, 52, 2⟩
  msize := ⟨2, 54, 2⟩
  deallocV := ⟨2, 56, 1⟩
  deallocId := ⟨0, 56, 5⟩
  src := ⟨0, 0, 56⟩
  dst := ⟨1, 0, 56⟩
  aux0 := ⟨4, 0, 56⟩
  aux1 := ⟨3, 2, 56⟩
  aux2 := ⟨5, 1, 56⟩
  xsumLo := ⟨7, 0, 64⟩
  xsumHi := ⟨6, 0, 64⟩
  msb0 := 127
  msb1 := 63
  polarity := [(5, 57), (0, 63), (1, 60), (2, 57), (3, 63), (4, 60)]
  stCodeLo := 3
  stExt := 0
  stSodd := 1
  stSucc := 2
  extCurLo := 32
  extMissLo := 0
  opcodes := (Opcode.all.map Opcode.code).reverse
  statusCodes := (StatusCode.all.map StatusCode.code).reverse
  faultCodes := (FaultCode.all.map FaultCode.code).reverse

/-- An admissible layout with the polarity bits in words 0, 1, 3, 4, 6 and 7 and checksum fields of 63 bits. -/
def crossed : Layout :=
  { Layout.reference with
    xsumLo := ⟨6, 0, 63⟩, xsumHi := ⟨7, 0, 63⟩, polarity := [(0, 56), (1, 56), (3, 56), (4, 56), (6, 63), (7, 63)] }

/-- An admissible layout whose polarity bit of word 2 stands in the top two bits, which word 5 does not mirror. -/
def topped : Layout :=
  { Layout.reference with xsumLo := ⟨6, 0, 63⟩, polarity := [(0, 56), (1, 56), (2, 62), (3, 56), (4, 56), (6, 63)] }

theorem test_layout_admissible :
    ([Layout.reference, other, crossed, topped].all fun L => L.admissible && L.unambiguous && L.holdsOperands) = true
    ∧ { other with src := ⟨0, 0, 40⟩ }.admissible = true ∧ { other with src := ⟨0, 0, 40⟩ }.holdsOperands = false
    ∧ { crossed with msb0 := 126 }.admissible = true ∧ { crossed with msb0 := 126 }.holdsOperands = false := by decide +kernel
/-- (L1), (L7): a field outside the eight words, outside its word, of no width, over another of the header. -/
theorem test_layout_fields :
    ([{ Layout.reference with slot := ⟨8, 8, 8⟩ }, { Layout.reference with src := ⟨1, 9, 56⟩ }, { Layout.reference with hwOnly := ⟨0, 50, 0⟩ },
      { Layout.reference with slot := ⟨0, 7, 8⟩ }].all fun L => !L.admissible) = true := by decide +kernel
/-- (L2): the checksum in a protected word or in an auxiliary one, a bit of the checksum that is no MSB. -/
theorem test_layout_mirrors :
    ([{ Layout.reference with xsumHi := ⟨2, 57, 7⟩ }, { Layout.reference with xsumLo := ⟨4, 57, 7⟩ },
      { Layout.reference with msb0 := 0 }].all fun L => !L.admissible) = true := by decide +kernel
/-- (L2), (L3): five polarity bits, a word with two, words 3-5 unlike words 0-2, one in a word and not in its mirror, one over
a sub-field, one in the place of an MSB. -/
theorem test_layout_polarity :
    ([[(0, 56), (1, 56), (2, 56), (3, 56), (4, 56)], [(0, 56), (1, 56), (2, 56), (3, 56), (4, 56), (4, 57)],
      [(0, 56), (1, 56), (2, 56), (3, 56), (4, 56), (5, 57)], [(0, 56), (1, 56), (6, 56), (3, 56), (4, 56), (5, 56)],
      [(0, 56), (1, 55), (2, 56), (3, 56), (4, 55), (5, 56)], [(0, 56), (1, 56), (2, 62), (3, 56), (4, 56), (5, 62)]].all fun l =>
        !{ Layout.reference with polarity := l }.admissible) = true := by decide +kernel
/-- (L4)-(L6): sub-fields that coincide, meet a polarity bit or are narrow; a narrow sequence number or opcode. -/
theorem test_layout_widths :
    ([{ Layout.reference with aux1 := ⟨3, 0, 56⟩ }, { Layout.reference with aux0 := ⟨3, 1, 56⟩ }, { Layout.reference with aux2 := ⟨5, 0, 55⟩ },
      { Layout.reference with seq := ⟨0, 16, 31⟩ }, { Layout.reference with opc := ⟨0, 0, 7⟩ }].all fun L => !L.admissible) = true := by
  decide +kernel
/-- Admissible and not unambiguous: SRC in the header, DST in a word that mirrors, a sub-field in the checksum, one checksum field in the other, flags of a
status byte that coincide, a code twice, a name without one, a code in the range of the others. -/
theorem test_layout_ambiguous :
    ([{ Layout.reference with src := ⟨0, 0, 56⟩ }, { Layout.reference with dst := ⟨3, 57, 7⟩ }, { Layout.reference with aux0 := ⟨6, 0, 56⟩ }, { Layout.reference with xsumHi := ⟨6, 0, 64⟩ },
      { Layout.reference with stExt := 6 }, { Layout.reference with extCurLo := 32 },
      { Layout.reference with statusCodes := (StatusCode.all.map StatusCode.code).set 3 0 },
      { Layout.reference with faultCodes := [0xFA] }, { Layout.reference with faultCodes := [0xF6, 0xFB, 0xFC, 0xFD, 0xFE, 0xFF] },
      { Layout.reference with opcodes := (Opcode.all.map Opcode.code).set 4 0xF7 }].all fun L => L.admissible && !L.unambiguous) = true := by
  decide +kernel
/-- A layout that breaks R117 is refused; one that meets it runs, ambiguous or not. -/
theorem test_layout_refused :
    (match step { s0 with params := { params with layout := { Layout.reference with dir := ⟨0, 48, 0⟩ } } } with
      | .refused .badConfiguration => true
      | _ => false) = true
    ∧ [crossed, topped, other, { Layout.reference with src := ⟨0, 0, 56⟩ }].all (fun L =>
      { s0 with params := { params with layout := L } }.configOk) = true := by decide +kernel

/-! ### Commands: each word, written out, decodes to its instruction, and the encoder answers that word for it.
Words from the E vectors; those of the `K_RAW` opcodes from 40_cmdgen.md R209-R224. -/

theorem test_null : decodeWord Layout.reference (dupWord 0x0008000000000000 0 0) = .ok (.null (hdr 0 0) bare) ∧ wordOf (.null (hdr 0 0) bare) s0 = some (dupWord 0x0008000000000000 0 0) := by decide +kernel
theorem test_getReg : decodeWord Layout.reference (dupWord 0x0008000000000001 0x40 0) = .ok (.getReg (hdr 0 0) 0x40 bare) ∧ wordOf (.getReg (hdr 0 0) 0x40 bare) s0 = some (dupWord 0x0008000000000001 0x40 0) := by decide +kernel
theorem test_putReg : decodeWord Layout.reference (dupWord 0x0008000000000002 0xAB 0x40) = .ok (.putReg (hdr 0 0) 0xAB 0x40 bare) ∧ wordOf (.putReg (hdr 0 0) 0xAB 0x40 bare) s0 = some (dupWord 0x0008000000000002 0xAB 0x40) := by decide +kernel
theorem test_cmdReset : decodeWord Layout.reference (dupWord 0x0008000000000003 0 0) = .ok (.cmdReset (hdr 0 0) bare) ∧ wordOf (.cmdReset (hdr 0 0) bare) s0 = some (dupWord 0x0008000000000003 0 0) := by decide +kernel
theorem test_seqRead : decodeWord Layout.reference (dupWord 0x003A000000000004 0x55 0x66) = .ok (.seqRead (hdr 2 3) 0x55 0x66 bare) ∧ wordOf (.seqRead (hdr 2 3) 0x55 0x66 bare) s0 = some (dupWord 0x003A000000000004 0x55 0x66) := by decide +kernel
theorem test_pageRead : decodeWord Layout.reference (dupWord 0x003A000000000005 0x1000 2) = .ok (.pageRead (hdr 2 3) 0x1000 0 2 bare) ∧ wordOf (.pageRead (hdr 2 3) 0x1000 0 2 bare) s0 = some (dupWord 0x003A000000000005 0x1000 2) := by decide +kernel
theorem test_pageWrite : decodeWord Layout.reference (⟨0x0139000000070306, 0x01000000FFFF0005, 0x0100000000002000, 0x0139000000070306, 0x01000000FFFF0005,
      0x4100000000002000, 0xFEDCBA9876543210, 0x0123456789ABCDEF⟩) = .ok (.pageWrite (hdr 1 3) 5 0 0xFF 0xFF 0x2000 ⟨3, 7, 1, none, 0x0123456789ABCDEFFEDCBA9876543210⟩) ∧ wordOf (.pageWrite (hdr 1 3) 5 0 0xFF 0xFF 0x2000 ⟨3, 7, 1, none, 0x0123456789ABCDEFFEDCBA9876543210⟩) s0 = some (⟨0x0139000000070306, 0x01000000FFFF0005, 0x0100000000002000, 0x0139000000070306, 0x01000000FFFF0005,
      0x4100000000002000, 0xFEDCBA9876543210, 0x0123456789ABCDEF⟩) := by decide +kernel
theorem test_extRead : decodeWord Layout.reference (dupWord 0x001A000000000007 0x1234 0x0207) = .ok (.extRead (hdr 2 1) 0x1234 2 7 bare) ∧ wordOf (.extRead (hdr 2 1) 0x1234 2 7 bare) s0 = some (dupWord 0x001A000000000007 0x1234 0x0207) := by decide +kernel
theorem test_extWrite : decodeWord Layout.reference (dupWord 0x0029000000000008 0xFF0A0409 0x3000) = .ok (.extWrite (hdr 1 2) 9 4 10 0xFF 0x3000 bare) ∧ wordOf (.extWrite (hdr 1 2) 9 4 10 0xFF 0x3000 bare) s0 = some (dupWord 0x0029000000000008 0xFF0A0409 0x3000) := by decide +kernel
theorem test_trim : decodeWord Layout.reference (dupWord 0x0008000000000009 0x100 8) = .ok (.trim (hdr 0 0) 0x100 8 bare) ∧ wordOf (.trim (hdr 0 0) 0x100 8 bare) s0 = some (dupWord 0x0008000000000009 0x100 8) := by decide +kernel
theorem test_devStats : decodeWord Layout.reference (dupWord 0x000800000000000A 0 0) = .ok (.devStats (hdr 0 0) 0 0 bare) ∧ wordOf (.devStats (hdr 0 0) 0 0 bare) s0 = some (dupWord 0x000800000000000A 0 0) := by decide +kernel
theorem test_devPassthru : decodeWord Layout.reference (⟨0x010200000003010B, 0x01000000000000FF, 0x0100000000000004, 0x01000000000E0885, 0x0140000000000000,
      0xC1000000000000EC, 0x8000000000000000, 0x8000000000000000⟩) = .ok (.devPassthru ⟨2, 0, 0, 0, 0⟩ 0xFF 4 0x00EC40000000000000000000000E0885 ⟨1, 3, 1, none, 0x80000000000000008000000000000000⟩) ∧ wordOf (.devPassthru ⟨2, 0, 0, 0, 0⟩ 0xFF 4 0x00EC40000000000000000000000E0885 ⟨1, 3, 1, none, 0x80000000000000008000000000000000⟩) s0 = some (⟨0x010200000003010B, 0x01000000000000FF, 0x0100000000000004, 0x01000000000E0885, 0x0140000000000000,
      0xC1000000000000EC, 0x8000000000000000, 0x8000000000000000⟩) := by decide +kernel
theorem test_copy : decodeWord Layout.reference (dupWord 0x001A00000000000C 0x55 0x66) = .ok (.copy (hdr 2 1) 0x55 0x66 bare) ∧ wordOf (.copy (hdr 2 1) 0x55 0x66 bare) s0 = some (dupWord 0x001A00000000000C 0x55 0x66) := by decide +kernel
theorem test_fwNull : decodeWord Layout.reference (dupWord 0x000800000000000D 0x55 0x66) = .ok (.fwNull (hdr 0 0) 0x55 0x66 bare) ∧ wordOf (.fwNull (hdr 0 0) 0x55 0x66 bare) s0 = some (dupWord 0x000800000000000D 0x55 0x66) := by decide +kernel
theorem test_shutdown : decodeWord Layout.reference (dupWord 0x000800000000000E 0 0) = .ok (.shutdown (hdr 0 0) bare) ∧ wordOf (.shutdown (hdr 0 0) bare) s0 = some (dupWord 0x000800000000000E 0 0) := by decide +kernel
theorem test_startup : decodeWord Layout.reference (dupWord 0x000800000000000F 0x55 0x66) = .ok (.startup (hdr 0 0) 0x55 0x66 bare) ∧ wordOf (.startup (hdr 0 0) 0x55 0x66 bare) s0 = some (dupWord 0x000800000000000F 0x55 0x66) := by decide +kernel
theorem test_traceCtrl : decodeWord Layout.reference (dupWord 0x0008000000000010 0x55 0x66) = .ok (.traceCtrl (hdr 0 0) 0x55 0x66 bare) ∧ wordOf (.traceCtrl (hdr 0 0) 0x55 0x66 bare) s0 = some (dupWord 0x0008000000000010 0x55 0x66) := by decide +kernel
theorem test_test : decodeWord Layout.reference (dupWord 0x0008000000000011 0x55 0x66) = .ok (.test (hdr 0 0) 0x55 0x66 bare) ∧ wordOf (.test (hdr 0 0) 0x55 0x66 bare) s0 = some (dupWord 0x0008000000000011 0x55 0x66) := by decide +kernel
theorem test_seqAdvance : decodeWord Layout.reference (dupWord 0x0008000000000012 0xFFFFFFFF 0) = .ok (.seqAdvance (hdr 0 0) 0xFFFFFFFF bare) ∧ wordOf (.seqAdvance (hdr 0 0) 0xFFFFFFFF bare) s0 = some (dupWord 0x0008000000000012 0xFFFFFFFF 0) := by decide +kernel
theorem test_debugLog : decodeWord Layout.reference (dupWord 0x000A000000000013 0x55 0x66) = .ok (.debugLog (hdr 2 0) 0x55 0x66 bare) ∧ wordOf (.debugLog (hdr 2 0) 0x55 0x66 bare) s0 = some (dupWord 0x000A000000000013 0x55 0x66) := by decide +kernel
theorem test_extError : decodeWord Layout.reference (dupWord 0x0008000000000014 0x55 0x66) = .ok (.extError (hdr 0 0) 0x55 0x66 bare) ∧ wordOf (.extError (hdr 0 0) 0x55 0x66 bare) s0 = some (dupWord 0x0008000000000014 0x55 0x66) := by decide +kernel
theorem test_fwDownload : decodeWord Layout.reference (dupWord 0x0039000000000015 0x55 0x66) = .ok (.fwDownload (hdr 1 3) 0x55 0x66 bare) ∧ wordOf (.fwDownload (hdr 1 3) 0x55 0x66 bare) s0 = some (dupWord 0x0039000000000015 0x55 0x66) := by decide +kernel
theorem test_getParams : decodeWord Layout.reference (dupWord 0x003A000000000016 1 0) = .ok (.getParams (hdr 2 3) 1 0 bare) ∧ wordOf (.getParams (hdr 2 3) 1 0 bare) s0 = some (dupWord 0x003A000000000016 1 0) := by decide +kernel
theorem test_setParams : decodeWord Layout.reference (dupWord 0x0009000000000017 4 1) = .ok (.setParams (hdr 1 0) 4 1 bare) ∧ wordOf (.setParams (hdr 1 0) 4 1 bare) s0 = some (dupWord 0x0009000000000017 4 1) := by decide +kernel
theorem test_crashLog : decodeWord Layout.reference (dupWord 0x0008000000000018 0x55 0x66) = .ok (.crashLog (hdr 0 0) 0x55 0x66 bare) ∧ wordOf (.crashLog (hdr 0 0) 0x55 0x66 bare) s0 = some (dupWord 0x0008000000000018 0x55 0x66) := by decide +kernel
theorem test_testRead : decodeWord Layout.reference (dupWord 0x000A000000000019 0x55 0x66) = .ok (.testRead (hdr 2 0) 0x55 0x66 bare) ∧ wordOf (.testRead (hdr 2 0) 0x55 0x66 bare) s0 = some (dupWord 0x000A000000000019 0x55 0x66) := by decide +kernel
theorem test_testWrite : decodeWord Layout.reference (dupWord 0x001900000000001A 0 0) = .ok (.testWrite (hdr 1 1) 0 0 bare) ∧ wordOf (.testWrite (hdr 1 1) 0 0 bare) s0 = some (dupWord 0x001900000000001A 0 0) := by decide +kernel
theorem test_sataReinit : decodeWord Layout.reference (dupWord 0x000800000000001B 0 0) = .ok (.sataReinit (hdr 0 0) bare) ∧ wordOf (.sataReinit (hdr 0 0) bare) s0 = some (dupWord 0x000800000000001B 0 0) := by decide +kernel
theorem test_cancel : decodeWord Layout.reference (dupWord 0x000800000000001C 3 0) = .ok (.cancel (hdr 0 0) 3 bare) ∧ wordOf (.cancel (hdr 0 0) 3 bare) s0 = some (dupWord 0x000800000000001C 3 0) := by decide +kernel
theorem test_faultInject : decodeWord Layout.reference (dupWord 0x000800000000001D 0x55 0x66) = .ok (.faultInject (hdr 0 0) 0x55 0x66 bare) ∧ wordOf (.faultInject (hdr 0 0) 0x55 0x66 bare) s0 = some (dupWord 0x000800000000001D 0x55 0x66) := by decide +kernel
theorem test_diagnostic : decodeWord Layout.reference (dupWord 0x000800000000001E 0x55 0x66) = .ok (.diagnostic (hdr 0 0) 0x55 0x66 bare) ∧ wordOf (.diagnostic (hdr 0 0) 0x55 0x66 bare) s0 = some (dupWord 0x000800000000001E 0x55 0x66) := by decide +kernel

/-- The machine in the other layout: a GET_REG, its code 0x1D in word 2, decodes and answers itself; a status byte of
success, polarity 1 and code 3; an ILLEGAL_CMD with its fault subtypes numbered otherwise. -/
theorem test_other_layout :
    decodeWord other ⟨0x40, 0, 0x000800000000001D, 0x40, 0, 0x000800000000001D, 0, 0⟩ = .ok (.getReg (hdr 0 0) 0x40 bare)
    ∧ wordOf (.getReg (hdr 0 0) 0x40 bare) { s0 with params := { params with layout := other } }
      = some ⟨0x40, 0, 0x000800000000001D, 0x40, 0, 0x000800000000001D, 0, 0⟩
    ∧ (polled { shows rd 0x1E 0 with params := { params with layout := other } } 110).rdbuf = some 3
    ∧ (polled { shows wr 0x1B 0xFF with params := { params with layout := other } } 110).why = some .hwWep := by decide +kernel
/-- The GET_REG of 40_cmdgen.md R184 with polarity 1 and a checksum of the two halves' MSBs and their lowest bits, where no
checksum field holds an MSB: the word, and what it decodes to. -/
theorem test_crossed_layout :
    finalize crossed ⟨0x0008000000000001, 0x40, 0, 0, 0, 0, 0, 0⟩ 1 0 0 none 0x80000000000000018000000000000001
      = ⟨0x0108000000000001, 0x0100000000000040, 0, 0x0108000000000001, 0x0100000000000040, 0xC000000000000000,
        0x8000000000000001, 0x8000000000000001⟩
    ∧ decodeWord crossed ⟨0x0108000000000001, 0x0100000000000040, 0, 0x0108000000000001, 0x0100000000000040, 0x4000000000000000,
        0x8000000000000001, 0x8000000000000000⟩
      = .ok (.getReg (hdr 0 0) 0x40 ⟨0, 0, 1, none, 0x8000000000000001⟩)
    ∧ finalize topped ⟨0x0008000000000001, 0x40, 0, 0, 0, 0, 0, 0⟩ 1 0 0 none 0
      = ⟨0x0108000000000001, 0x0100000000000040, 0x4000000000000000, 0x0108000000000001, 0x0100000000000040, 0,
        0x8000000000000000, 0⟩
    ∧ finalize other CmdWord.zero 0 0 0 none 0x80000000000000000000000000000000
      = ⟨0, 0, 0, 0, 0, 0x4000000000000000, 0x8000000000000000, 0⟩
    ∧ decodeWord Layout.reference ⟨0x0008000000000001, 0x40, 0, 0x0008000000000001, 0x40, 0x4000000000000000, 0, 0⟩
      = .error .checksumMsbs := by decide +kernel

/-! ### Host operations: each request, written out, decodes to its instruction (R160, notes/assumptions/9.md) -/

theorem test_decode_opReset : decode Layout.reference (.hostOp [0x0]) = .ok (.opReset) := by decide +kernel
theorem test_decode_encBuild : decode Layout.reference (.hostOp [0x1, 3, 0, 0, 0, 0, 0x40, 0, 0, 0, 0, 0, 0, 0, 0, 0, 0, 0, 0, 0, 0, 0, 0, 0, 0]) = .ok (.encBuild { BuildReq.blank with kind := 3, reg := 0x40 }) := by decide +kernel
theorem test_decode_encFinalize : decode Layout.reference (.hostOp [0x2, 1, 0x40, 0, 0, 0, 0, 0, 0, 1, 3, 7, 1, 0x11, 9]) = .ok (.encFinalize ⟨1, 0x40, 0, 0, 0, 0, 0, 0⟩ 1 3 7 (some 0x11) 9) := by decide +kernel
theorem test_decode_alloc : decode Layout.reference (.hostOp [0x3, 0, 3]) = .ok (.alloc 0 3) := by decide +kernel
theorem test_decode_allocId : decode Layout.reference (.hostOp [0x4, 3, 9]) = .ok (.allocId 3 9) := by decide +kernel
theorem test_decode_build : decode Layout.reference (.hostOp [0x5, 2, 3, 0, 0, 0, 0, 0x40, 0, 0, 0, 0, 0, 0, 0, 0, 0, 0, 0, 0, 0, 0, 0, 0, 0, 0]) = .ok (.build 2 { BuildReq.blank with kind := 3, reg := 0x40 }) := by decide +kernel
theorem test_decode_issue : decode Layout.reference (.hostOp [0x6, 0, 0, 0x7B, 10]) = .ok (.issue 0 none 123 10) := by decide +kernel
theorem test_decode_statusRefresh : decode Layout.reference (.hostOp [0x7, 1, 0xAC, 0x02]) = .ok (.statusRefresh .reserved 300) := by decide +kernel
theorem test_decode_poll : decode Layout.reference (.hostOp [0x8, 3, 0xEE, 0x00]) = .ok (.poll 3 110) := by decide +kernel
theorem test_decode_reissue : decode Layout.reference (.hostOp [0x9, 0, 0, 20]) = .ok (.reissue 0 none 20) := by decide +kernel
theorem test_decode_detach : decode Layout.reference (.hostOp [0xA, 1]) = .ok (.detach 1) := by decide +kernel
theorem test_decode_release : decode Layout.reference (.hostOp [0xB, 2, 0, 0]) = .ok (.release 2) := by decide +kernel
theorem test_decode_reservedOp :
    decode Layout.reference (.hostOp [0xC]) = .error .reservedOp ∧ decode Layout.reference (.hostOp [0xF, 1]) = .error .reservedOp := by
  decide +kernel
theorem test_decode_reservedOpcode :
    decodeWord Layout.reference ⟨0x1F, 0, 0, 0, 0, 0, 0, 0⟩ = .error .reservedOpcode ∧ decodeWord Layout.reference ⟨0xF6, 0, 0, 0, 0, 0, 0, 0⟩ = .error .reservedOpcode
    ∧ decodeWord Layout.reference ⟨0xF7, 0, 0, 0, 0, 0, 0, 0⟩ = .error .pseudoOpcode ∧ decodeWord Layout.reference ⟨0xFF, 0, 0, 0, 0, 0, 0, 0⟩ = .error .pseudoOpcode := by
  decide +kernel
theorem test_decode_reservedBit : decodeWord Layout.reference ⟨0x8000000000000000, 0, 0, 0, 0, 0, 0, 0⟩ = .error .reservedBits := by decide +kernel
theorem test_decode_polarity : decodeWord Layout.reference ⟨0x0100000000000000, 0, 0, 0, 0, 0, 0, 0⟩ = .error .mixedPolarity := by decide +kernel
theorem test_decode_mirror : decodeWord Layout.reference ⟨0x0008000000000000, 0, 0, 0, 0, 0, 0, 0⟩ = .error .notMirrored := by decide +kernel
theorem test_tableWords :
    decodeTableWord 8 0x8 = some (.poll 0 0) ∧ decodeTableWord 512 0x8 = some (.extWrite ⟨0, 0, 0, 0, 0⟩ 0 0 0 0 0 bare)
    ∧ decodeTableWord 8 0x1E = some (.diagnostic ⟨0, 0, 0, 0, 0⟩ 0 0 bare) := by decide +kernel

/-! ### One step of each operation -/

/-- The request `READ lba=0x1234 d2h_len=1024 core_buf=7`. -/
def reqRD : BuildReq := { BuildReq.blank with kind := 0, lba := 0x1234, d2hLen := 1024, coreBuf := some 7 }

/-- The request `WRITE lba=0x2000 h2d_len=4096 wbuf=[5] host_live=true req_tag=7`. -/
def reqWR : BuildReq :=
  { BuildReq.blank with kind := 1, lba := 0x2000, h2dLen := 4096, wbuf0 := some 5, hostLive := true, reqTag := 7 }

/-- E2, E12 and E4. -/
theorem test_encBuild :
    wordOf (.encBuild reqRD) s0 = some ⟨0x001A000000000007, 0x1234, 0x207, 0, 0, 0, 0, 0⟩
    ∧ wordOf (.encBuild reqWR) s0 = some ⟨0x0039000000000006, 0xFFFF0005, 0x2000, 0, 0, 0, 0, 0⟩
    ∧ wordOf (.encBuild { reqRD with lba := 0xFFFFFFFFFFFFFF, d2hLen := 2048, coreBuf := some 0x1F, msize := 1, hwOnly := 1 }) s0
      = some ⟨0x006E000000000007, 0x00FFFFFFFFFFFFFF, 0x41F, 0, 0, 0, 0, 0⟩ := by decide +kernel
/-- E5, E6, E9, E11, E33, E41, E42, E48, E52. -/
theorem test_encBuild_rejects :
    errOf (.encBuild { reqRD with d2hLen := 0 }) s0 = some .badDir ∧ errOf (.encBuild { reqRD with d2hLen := 4095 }) s0 = some .badSize
    ∧ errOf (.encBuild { reqRD with h2dLen := 512 }) s0 = some .bidir ∧ errOf (.encBuild { reqRD with msize := 3 }) s0 = some .badMsize
    ∧ errOf (.encBuild { BuildReq.blank with kind := 13 }) s0 = some .badSeqCount
    ∧ errOf (.encBuild { BuildReq.blank with kind := 7, cdb := 0x85 :: 0x18 :: List.replicate 14 0 }) s0 = some .badProtocol
    ∧ errOf (.encBuild { BuildReq.blank with kind := 7, cdb := 0x85 :: 6 :: List.replicate 10 0 }) s0 = some .badPtOpcode
    ∧ errOf (.encBuild { BuildReq.blank with kind := 14, rawOpcode := 6 }) s0 = some .badOpcode
    ∧ errOf (.encBuild { BuildReq.blank with kind := 15 }) s0 = some .badKind := by decide +kernel
/-- F1 and F2. -/
theorem test_encFinalize :
    wordOf (.encFinalize ⟨0x0039000000000006, 0xFFFF0005, 0x2000, 0, 0, 0, 0, 0⟩ 0 0x1F 0xFFFFFFFF (some 0x1F) (BitVec.allOnes 128)) s0
      = some ⟨0x7E39FFFFFFFF1F06, 0xFFFF0005, 0x2000, 0x7E39FFFFFFFF1F06, 0xFFFF0005, 0xC000000000002000, 0xFFFFFFFFFFFFFFFF, 0xFFFFFFFFFFFFFFFF⟩
    ∧ wordOf (.encFinalize ⟨0x0039000000000006, 0xFFFF0005, 0x2000, 0, 0, 0, 0, 0⟩ 1 3 7 none 0x0123456789ABCDEFFEDCBA9876543210) s0
      = some ⟨0x0139000000070306, 0x01000000FFFF0005, 0x0100000000002000, 0x0139000000070306, 0x01000000FFFF0005, 0x4100000000002000,
          0xFEDCBA9876543210, 0x0123456789ABCDEF⟩ := by decide +kernel
/-- F4: no duplication. -/
theorem test_encFinalize_plain :
    wordOf (.encFinalize ⟨1, 0x40, 0, 0, 0, 0, 0, 0⟩ 1 2 0 none 0x80000000000000000000000000000001) s0
      = some ⟨0x0100000000000201, 0x0100000000000040, 0x0100000000000000, 0x0100000000000000, 0x0100000000000000, 0x8100000000000000,
          1, 0x8000000000000000⟩ := by decide +kernel
/-- T1: the lowest free slot by the reference draw 0, another by draw 2. -/
theorem test_alloc :
    (respOf (.alloc 0 0) { s0 with draws := [0] }).slot = some 0 ∧ (respOf (.alloc 0 0) { s0 with draws := [2] }).slot = some 2
    ∧ ((after s0 (exec (.alloc 4 3) { s0 with draws := [0] })).tokAt 0).ctrGeneric = 3 := by decide +kernel
theorem test_alloc_exhausted : errOf (.alloc 0 0) { s0 with params := { params with r := 4 } } = some .poolExhausted := by decide +kernel
/-- T2. -/
theorem test_allocId :
    (respOf (.allocId 3 9) s0).slot = some 3 ∧ errOf (.allocId 4 9) s0 = some .badSlot
    ∧ errOf (.allocId 0 9) (withTok rd) = some .slotBusy := by decide +kernel
/-- T5, T6. -/
theorem test_build :
    ((after s0 (exec (.build 0 reqRD) (withTok { Token.reset with st := .allocated }))).tokAt 0).cmd
      = ⟨0x001A000000000007, 0x1234, 0x207, 0, 0, 0, 0, 0⟩
    ∧ errOf (.build 0 { reqRD with buddy := some 0 }) (withTok { Token.reset with st := .allocated }) = some .badBuddy
    ∧ errOf (.build 0 { reqRD with d2hLen := 100 }) (withTok { Token.reset with st := .allocated }) = some .badSize := by decide +kernel

/-- The token of `ALLOC; BUILD 0 WR`. -/
def builtWR : Token :=
  { Token.reset with
    st := .built, cmd := ⟨0x0039000000000006, 0xFFFF0005, 0x2000, 0, 0, 0, 0, 0⟩, cls := .write, devdir := true, h2dLen := 4096,
    wbuf0 := some 5, hostLive := true, reqTag := 7, xferFromHost := true }

/-- T14: the word written, the counters and the deadline. -/
theorem test_issue :
    (after s0 (exec (.issue 0 none 0 10) (withTok builtWR))).submitted
      = [(0, dupWord 0x0139000000000006 0x01000000FFFF0005 0x0100000000002000)]
    ∧ (after s0 (exec (.issue 0 none 0 10) (withTok builtWR))).seqNext = 1
    ∧ ((after s0 (exec (.issue 0 none 0 10) (withTok builtWR))).tokAt 0).tmoDur = 1500
    ∧ (after s0 (exec (.issue 0 none 0 10) (withTok builtWR))).mem.read 40 = some 0x00
    ∧ (after s0 (exec (.issue 0 none 0 10) (withTok builtWR))).mem.read 47 = some 0x01 := by decide +kernel
/-- T10. -/
theorem test_issue_denied :
    ((after s0 (exec (.issue 0 none 0 1) { withTok builtWR with params := { params with filter := .denying [6] } })).tokAt 0).why
      = some .filterDeny
    ∧ (after s0 (exec (.issue 0 none 0 1) { withTok builtWR with params := { params with filter := .denying [6] } })).submitted = [] := by
  decide +kernel
/-- T18, T19. -/
theorem test_statusRefresh :
    errOf (.statusRefresh .general 9) { s0 with lastNow := 10 } = some .timeRegression
    ∧ ((after s0 (exec (.statusRefresh .reserved 10) { s0 with mem := ⟨[(0x10003, 0)]⟩ })).slots.map fun sl => sl.cache)
      = [none, none, none, some 0] := by decide +kernel
/-- T15: the same slot launched again with the other polarity. -/
theorem test_reissue :
    ((after s0 (exec (.reissue 0 (some { reqRD with d2hLen := 4096 }) 120) (withTok { rd with st := .done, result := .retry }))).submitted.map
      fun p => p.2.w0) = [0x003A000000000005]
    ∧ ((after s0 (exec (.reissue 0 none 120) (withTok { rd with st := .done, result := .retry }))).tokAt 0).ctrGeneric = 1 := by
  decide +kernel
/-- V2.5-4; and R251, R256, R257: a denied re-issue has counted. -/
theorem test_reissue_budget :
    (respOf (.reissue 0 none 3) (withTok { rd with st := .done, result := .retry, ctrGeneric := 3 })).result = some .abort
    ∧ ((after s0 (exec (.reissue 0 none 3) { withTok { builtWR with st := .done, result := .retry } with
        params := { params with filter := .denying [6] } })).tokAt 0).ctrGeneric = 1 := by decide +kernel
/-- T9. -/
theorem test_detach : ((after s0 (exec (.detach 0) (withTok builtWR))).tokAt 0).hostLive = false ∧ errOf (.detach 1) s0 = some .badState := by
  decide +kernel
/-- T9. -/
theorem test_release :
    errOf (.release 0) (withTok builtWR) = some .hostAttached
    ∧ (respOf (.release 0) (withTok { builtWR with hostLive := false })).events = [.released 0 none (some 5) none none none]
    ∧ (after s0 (exec (.release 0) (withTok { builtWR with hostLive := false }))).tokAt 0 = Token.reset := by decide +kernel
/-- X6. -/
theorem test_opReset :
    (after s0 (exec .opReset { shows wr 0x6A 0xFF with run := .dead })).run = .running
    ∧ (after s0 (exec .opReset { shows wr 0x6A 0xFF with run := .dead })).tokAt 0 = Token.reset := by decide +kernel

/-- Result and reason after POLL at 110. -/
def ends (t : Token) (b : Byte) (v : Word) : Result × Option Reason :=
  ((polled (shows t b v) 110).result, (polled (shows t b v) 110).why)

/-- D1-D6, D13-D29, D32, D33, D36, D37. -/
theorem test_poll_results :
    ([(rd, (0xC3 : Byte), (0 : Word)), (wr, 0xC0, 0), (wr, 0x83, 0), (rd, 0x43, 0), (wr, 0x49, 0), (ct, 0x4A, 0), (wr, 0x6A, 0xFF),
      (wr, 0x6A, 0xFB), (wr, 0x6A, 0xFA), (rd, 0x6A, 0x12FD), (rd, 0x6A, 0xFC), (wr, 0x6A, 0xFE), (ct, 0x6A, 0xF8), (wr, 0x64, 8),
      (ct, 0x44, 0), (rd, 0x46, 0), (wr, 0x4D, 0), (wr, 0x45, 0), (wr, 0x48, 0), (rd, 0x48, 0), (ct, 0x4E, 0), (ct, 0x5F, 0)].map
      fun x => ends x.1 x.2.1 x.2.2)
    = [(.ok, none), (.ok, none), (.notComplete, none), (.retry, some .collision), (.retry, some .field), (.abort, some .illegalNoExt),
      (.abortHard, some .fatalFw), (.retry, some .hwXsum), (.retry, some .hwWep), (.retry, some .hwCmdOffset), (.retry, some .hwEcc),
      (.abort, some .unknownHw), (.abort, some .unknownFc), (.abortHard, some .exeDevdir), (.abort, some .exe), (.retry, some .ecc),
      (.abort, some .unknownHw), (.retry, some .xsum), (.retry, some .dupRetry), (.abort, some .dupAbort), (.abort, some .unspecCode),
      (.abort, some .unspecCode)] := by decide +kernel
/-- D7-D12, D30, D31: stage and deadline; O2: the re-write, then the timeout, in one POLL;
O4: a stale byte, then the timeout. -/
theorem test_poll_progress :
    ([(rd, (0x40 : Byte)), (wr, 0x41), (ct, 0x42), (rd, 0x4B), (wr, 0x4B), (ct, 0x4B), (rd, 0x6C), (ct, 0x4C)].map
      fun x => ((polled (shows x.1 x.2 1) 110).stage, (polled (shows x.1 x.2 1) 110).armedTime, (polled (shows x.1 x.2 1) 110).tmoDur))
    = [(.queued, 110, 1000), (.received, 110, 3000), (.waitDev, 110, 8000), (.waitDev, 110, 4000), (.waitDev, 110, 6000),
      (.issued, 100, 2000), (.waitDev, 110, 4000), (.waitDev, 110, 8000)]
    ∧ (respOf (.poll 0 1160) { silent rd with refreshGeneral := some 1150 }).events = [.rewrite 0 .lost, .log .warn 0 .timeout none]
    ∧ (respOf (.poll 0 1600) { shows wr 0x00 0 with refreshGeneral := some 1600 }).events
      = [.statusChanged 0 0x00, .log .warn 0 .timeout none] := by decide +kernel


/-! ### Witnesses: the hypotheses of each statement, met by concrete states and operands, clause by clause -/

/-- Slot 0 with token `t`, its status byte not new. -/
def quietly (t : Token) : State := { silent t with refreshGeneral := some 110 }

/-- A request of kind `k` with the two lengths. -/
def ofKind (k : Byte) (h d : Nat) : BuildReq := { BuildReq.blank with kind := k, h2dLen := h, d2hLen := d }

/-- The word with opcode 6 that `builtWR` holds. -/
def wordWR : CmdWord := ⟨0x0039000000000006, 0xFFFF0005, 0x2000, 0, 0, 0, 0, 0⟩

theorem wit_DecodeAndEncodeAgree :
    (other.admissible = true ∧ other.unambiguous = true ∧ other.holdsOperands = true ∧ crossed.admissible = true ∧ crossed.unambiguous = true
      ∧ crossed.holdsOperands = true
      ∧ (Instr.devPassthru ⟨3, 1, 0, 3, 3⟩ 0xFF 0 (BitVec.allOnes 128) ⟨0xFF, 0xFFFFFFFF, 1, some 0, BitVec.allOnes 128⟩).encodable = true)
    ∧ decodeWord Layout.reference (dupWord 0x0008000000000001 0x40 0) = .ok (.getReg (hdr 0 0) 0x40 bare) := by decide +kernel
theorem wit_OpcodeTable :
    Layout.reference.opcodeIn wordWR = some .pageWrite ∧ other.codesFit = true ∧ other.statusOf 3 = some .illegalCmd
    ∧ other.faultOf 0xFF = some .wepTimeout ∧ other.statusOf 14 = none := by decide +kernel
theorem wit_StepRunsDecoded :
    { s0 with inputs := [.request (.hostOp [0x8, 3, 20])] }.configOk = true ∧ decode s0.params.layout (.hostOp [0x8, 3, 20]) = .ok (.poll 3 20) := by
  decide +kernel
theorem wit_StepRunsEncoded :
    { s0 with inputs := [.request (encode s0.params.layout (.seqAdvance (hdr 0 0) 5 bare))] }.configOk = true
    ∧ s0.params.layout.unambiguous = true ∧ s0.params.layout.holdsOperands = true ∧ (Instr.seqAdvance (hdr 0 0) 5 bare).encodable = true := by decide +kernel
theorem wit_ReservedOperationRaisesBadOp :
    { s0 with inputs := [.request (.hostOp [0xC])] }.configOk = true ∧ 12 ≤ (0xC : Byte).toNat ∧ (0xC : Byte).toNat < 16
    ∧ 12 ≤ (0xF : Byte).toNat ∧ (0xF : Byte).toNat < 16 := by decide +kernel
theorem wit_DeviceWriteIsRead :
    { s0 with inputs := [.device (.status 3 0xC0)] }.configOk = true ∧ { s0 with inputs := [.device (.ext 0 7)] }.configOk = true
    ∧ 0 < s0.numSlots ∧ 3 < s0.numSlots := by decide +kernel
theorem wit_OperationErrorIsPrecise : errOf (.release 4) s0 = some .badSlot ∧ errOf (.poll 0 109) (shows rd 0 0) = some .timeRegression := by
  decide +kernel
theorem wit_SlotAndTimeAreChecked : (silent rd).numSlots ≤ 4 ∧ 109 < (silent rd).lastNow ∧ 0 < (silent rd).numSlots ∧ 3 < (silent rd).numSlots := by
  decide +kernel
theorem wit_TokenStateIsChecked :
    ((withTok builtWR).Accepts 0 0 ∧ ((withTok builtWR).tokAt 0).st ≠ .free)
    ∧ ((shows rd 0 0).Accepts 0 110 ∧ ((shows rd 0 0).tokAt 0).st ≠ .allocated ∧ ((shows rd 0 0).tokAt 0).st ≠ .built)
    ∧ ((withTok builtWR).tokAt 0).st = .built ∧ (withTok builtWR).numSlots ≤ 4
    ∧ ({ withTok builtWR with run := .dead }.Accepts 0 0 ∧ { withTok builtWR with run := .dead }.run = .dead)
    ∧ (s0.Accepts 3 0 ∧ (s0.tokAt 3).st = .free ∧ (s0.tokAt 3).st ≠ .built ∧ (s0.tokAt 3).st ≠ .done ∧ (s0.tokAt 3).st ≠ .active)
    ∧ ((withTok { rd with st := .done, result := .timeout }).tokAt 0).st = .done
    ∧ ((withTok { rd with st := .done, result := .timeout }).tokAt 0).result = .timeout
    ∧ ((shows rd 0 0).tokAt 0).st = .active ∧ ((withTok builtWR).tokAt 0).hostLive = true := by decide +kernel

/-- A state in the middle of a run: a write in flight in slot 0, and a POLL of it next on the port. -/
def midway : State :=
  { shows { wr with cmd := wordWR, wire := wordWR } 0xC0 0 with inputs := [.request (.hostOp [0x8, 0, 110])], submitted := [(0, wordWR)] }

theorem wit_step : ∃ t, step midway = .next t ∧ (t.tokAt 0).result = .ok := ⟨_, rfl, by decide +kernel⟩
theorem wit_BlockInvariantKept : midway.BlockInv := by decide +kernel
theorem wit_TimesAndMemoryFormKept : midway.TimeInv ∧ midway.mem.wf = true := by decide +kernel
theorem wit_CommandWordsStayClean : midway.params.layout.unambiguous = true ∧ midway.CleanInv := by
  refine ⟨by decide +kernel, fun i hi => ?_, fun p hp => ?_⟩
  · have hi : i < 4 := hi
    interval_cases i <;> exact ⟨by decide +kernel, by decide +kernel⟩
  · obtain rfl := List.mem_singleton.1 hp
    decide +kernel
theorem wit_ConfigurationIsFixed : midway.configOk = true := by decide +kernel
theorem wit_DeadStateRules :
    (∃ t, exec (.poll 0 110) { midway with run := .dead } = .next t) ∧ Instr.poll 0 110 ≠ .opReset
    ∧ (∃ t, exec (.detach 0) { midway with run := .dead } = .next t)
    ∧ (∃ t, exec (.poll 0 110) (shows wr 0x6A 0xFF) = .next t ∧ (shows wr 0x6A 0xFF).run = .running
      ∧ ((shows wr 0x6A 0xFF).tokAt 0).result ≠ .abortHard ∧ (t.tokAt 0).result = .abortHard
      ∧ Event.halted 0 .fatalFw ∈ t.resp.events ∧ t.run = .dead) :=
  ⟨⟨_, rfl⟩, by decide, ⟨_, rfl⟩, ⟨_, rfl, by decide +kernel, by decide +kernel, by decide +kernel, by decide +kernel, by decide +kernel⟩⟩
theorem wit_OnlyCommandSlotsAreWritten :
    (midway.BlockInv ∧ ∃ t, exec (.poll 0 1300) midway = .next t)
    ∧ { midway with run := .dead }.run = .dead ∧ ∃ t, exec (.poll 0 1300) { midway with run := .dead } = .next t :=
  ⟨⟨by decide +kernel, ⟨_, rfl⟩⟩, rfl, ⟨_, rfl⟩⟩
theorem wit_PolarityAndSequenceOnlyAtLaunch :
    (∃ t, exec (.issue 0 none 0 10) (withTok builtWR) = .next t) ∧ Instr.issue 0 none 0 10 ≠ .opReset := ⟨⟨_, rfl⟩, by decide⟩
theorem wit_CacheFlagAndTimeRules :
    (∃ t, exec (.poll 0 110) { midway with unspecSeen := true } = .next t) ∧ { midway with unspecSeen := true }.unspecSeen = true :=
  ⟨⟨_, rfl⟩, rfl⟩
theorem wit_StatisticsDecideNothing : ∃ t, exec (.poll 0 110) midway = .next t := ⟨_, rfl⟩

theorem wit_EncBuildTransfers :
    s0.params.layout.admissible = true ∧ s0.params.layout.unambiguous = true
    ∧ other.admissible = true ∧ other.unambiguous = true ∧ crossed.admissible = true ∧ crossed.unambiguous = true
    ∧ (ofKind 0 0 512).msize ≠ 3 ∧ (ofKind 0 0 512).d2hLen = lenOf 0 ∧ (ofKind 5 0 4096).d2hLen = lenOf 3 ∧ (ofKind 1 512 0).h2dLen = lenOf 0
    ∧ (ofKind 6 4096 0).h2dLen = lenOf 3 := by decide +kernel
theorem wit_EncBuildControls :
    (s0.params.layout.admissible = true ∧ s0.params.layout.unambiguous = true) ∧ (ofKind 2 0 0).msize ≠ 3 ∧ NoLength (ofKind 2 0 0) ∧ { ofKind 13 0 0 with seqCount := 1 }.seqCount ≠ 0
    ∧ { ofKind 13 0 0 with seqCount := 2 ^ 32 - 1 }.seqCount < 2 ^ 32 := ⟨by decide +kernel, by decide, ⟨rfl, rfl⟩, by decide, by decide⟩
theorem wit_EncBuildPassthroughAndRaw :
    PassthroughForm (0x85 :: 0x06 :: List.replicate 14 0) ∧ (((0x85 :: 0x06 :: List.replicate 14 0 : List Byte).getD 1 0).extractLsb' 1 4 : BitVec 4) = 3
    ∧ PassthroughForm (0xA1 :: 0x08 :: List.replicate 10 0) ∧ (((0xA1 :: 0x08 :: List.replicate 10 0 : List Byte).getD 1 0).extractLsb' 1 4 : BitVec 4) = 4
    ∧ (((0x85 :: 0x0A :: List.replicate 14 0 : List Byte).getD 1 0).extractLsb' 1 4 : BitVec 4) = 5 ∧ (ofKind 7 0 512).d2hLen = lenOf 0 ∧ (ofKind 7 4096 0).h2dLen = lenOf 3
    ∧ NoLength (ofKind 14 0 0) ∧ .seqRead ∈ rawOpcodes ∧ 0x04 = s0.params.layout.opcode .seqRead
    ∧ 0x1A = { s0 with params := { params with layout := other } }.params.layout.opcode .seqRead
    ∧ (s0.params.layout.admissible = true ∧ s0.params.layout.unambiguous = true) :=
  ⟨by decide, by decide, by decide, by decide, by decide, by decide, by decide, ⟨rfl, rfl⟩, by decide, by decide, by decide, by decide +kernel⟩
theorem wit_EncBuildRejects :
    14 < (ofKind 15 0 0).kind.toNat ∧ ((ofKind 14 0 0).kind.toNat ≤ 14 ∧ { ofKind 14 0 0 with msize := 3 }.msize = 3)
    ∧ (s0.params.layout.codesFit = true
      ∧ ¬ ∃ o ∈ rawOpcodes, { ofKind 14 0 0 with rawOpcode := 0x1F }.rawOpcode = s0.params.layout.opcode o)
    ∧ ¬ PassthroughForm [0x28] ∧ (((0x85 :: 0x0C :: List.replicate 14 0 : List Byte).getD 1 0).extractLsb' 1 4 : BitVec 4) ∉ ([3, 4, 5] : List (BitVec 4))
    ∧ ((ofKind 0 512 512).h2dLen ≠ 0 ∧ (ofKind 0 512 512).d2hLen ≠ 0)
    ∧ ((ofKind 0 0 4095).d2hLen ≠ 0 ∧ (ofKind 0 0 4095).d2hLen ≠ 4096) ∧ (ofKind 0 4096 0).d2hLen = 0 ∧ (ofKind 1 0 512).h2dLen = 0
    ∧ (ofKind 13 0 0).kind ∈ ([2, 3, 4, 8, 9, 10, 11, 12, 13] : List Byte) ∧ { ofKind 13 0 0 with seqCount := 2 ^ 32 }.seqCount = 2 ^ 32 := by
  decide +kernel
theorem wit_FinalizeLaws :
    wordWR.getField Layout.reference.dupChk = 1 ∧ (⟨0, 0, 0x0008000000000000, 0, 0, 0, 0, 0⟩ : CmdWord).getField other.dupChk = 1
    ∧ ([Layout.reference, other, crossed].all fun L => L.admissible && L.unambiguous && L.holdsChecksum) = true
    ∧ 64 ≤ other.xsumLo.width ∧ 64 ≤ other.xsumHi.width
    ∧ { Layout.reference with src := ⟨0, 0, 56⟩ }.admissible = true := by decide +kernel
theorem wit_FinalizeStampsTheWord :
    (s0.params.layout.admissible = true ∧ s0.params.layout.unambiguous = true ∧ s0.params.layout.holdsOperands = true ∧ s0.params.layout = Layout.reference
      ∧ (⟨1, 0x40, 0, 0, 0, 0, 0, 0⟩ : CmdWord).getField Layout.reference.dupChk ≠ 1
      ∧ (⟨1, 0x40, 0, 0, 0, 0, 0, 0⟩ : CmdWord).w0.extractLsb' 51 1 = 0)
    ∧ inFields ([other.slot, other.seq, other.deallocV, other.deallocId] ++ other.xsumFields ++ other.polarityFields) 2 7 = false
    ∧ (let L := { Layout.reference with xsumLo := ⟨6, 0, 63⟩ }
      L.admissible = true ∧ L.unambiguous = true ∧ L.holdsOperands = true
        ∧ inFields ([L.slot, L.seq, L.deallocV, L.deallocId] ++ L.xsumFields ++ L.polarityFields) 6 63 = false)
    ∧ inFields (other.polarityFields ++ msbFields) 5 61 = false := by decide +kernel
theorem wit_BareCommandsAnswer :
    s0.params.layout.admissible = true ∧ s0.params.layout.unambiguous = true ∧ (hdr 0 0).msize ≠ 3 ∧ (hdr 0 0).dir = 0 ∧ (hdr 3 0).dir = 3 ∧ (hdr 1 0).dir = 1 ∧ (hdr 2 3).dir = 2 := by decide +kernel
theorem wit_ControlCommandsAnswer :
    s0.params.layout.admissible = true ∧ s0.params.layout.unambiguous = true ∧ ((0xFFFFFFFF : BitVec 56) ≠ 0 ∧ (0xFFFFFFFF : BitVec 56).toNat < 2 ^ 32)
    ∧ 2 ^ 32 ≤ (0x100000000 : BitVec 56).toNat := by
  decide +kernel
theorem wit_TransferCommandsAnswer :
    s0.params.layout.admissible = true ∧ s0.params.layout.unambiguous = true ∧ (hdr 2 3).msize ≠ 3 ∧ (hdr 2 3).dir = 2 ∧ (hdr 1 0).dir = 1 ∧ (hdr 0 0).dir ≠ 2 ∧ (hdr 3 0).dir ≠ 1 := by
  decide +kernel
theorem wit_PassthroughCommandAnswers :
    s0.params.layout.admissible = true ∧ s0.params.layout.unambiguous = true ∧ ((0x0685 : BitVec 128).extractLsb' 0 8 = (0x85 : Byte) ∧ (0x0685 : BitVec 128).extractLsb' 9 4 = (3 : BitVec 4))
    ∧ ((0x08A1 : BitVec 128).extractLsb' 0 8 = (0xA1 : Byte) ∧ (0x08A1 : BitVec 128).extractLsb' 9 4 = (4 : BitVec 4))
    ∧ (0x0A85 : BitVec 128).extractLsb' 9 4 = (5 : BitVec 4)
    ∧ ((0x28 : BitVec 128).extractLsb' 0 8 ≠ (0x85 : Byte) ∧ (0x28 : BitVec 128).extractLsb' 0 8 ≠ (0xA1 : Byte))
    ∧ (0x0C85 : BitVec 128).extractLsb' 9 4 ∉ ([3, 4, 5] : List (BitVec 4)) := by decide +kernel
theorem wit_RawCommandsAnswer :
    s0.params.layout.admissible = true ∧ s0.params.layout.unambiguous = true ∧ (hdr 1 3).msize ≠ 3 ∧ (hdr 1 3).dir ≠ 3 ∧ (hdr 3 0).dir = 3 := by decide +kernel
theorem wit_CommandAnswerDecodes :
    s0.params.layout.admissible = true ∧ s0.params.layout.unambiguous = true ∧ s0.params.layout.holdsOperands = true
    ∧ (Instr.extRead (hdr 2 1) 0x1234 2 7 bare).parts s0.params.layout
      = some (plainParts s0.params.layout .extRead (hdr 2 1) 0x1234 (packRead 2 7) bare)
    ∧ (Instr.extRead (hdr 2 1) 0x1234 2 7 bare).wf = true ∧ hdr 2 1 = configuredHdr s0.params.cfg (hdr 2 1)
    ∧ (Instr.devPassthru ⟨2, 0, 0, 0, 0⟩ 0xFF 4 0x0885 bare).wf = true
    ∧ ((Instr.devPassthru ⟨2, 0, 0, 0, 0⟩ 0xFF 4 0x0885 bare).parts s0.params.layout).map (fun p => p.opc)
      = some (s0.params.layout.opcode .devPassthru) := by decide +kernel

theorem wit_AllocationTakesAFreeSlot :
    (2 < s0.numSlots - s0.params.r ∧ (s0.tokAt 2).st = .free) ∧ (3 < s0.numSlots ∧ (s0.tokAt 3).st = .free)
    ∧ ¬ ∃ i, i < { s0 with params := { params with r := 4 } }.numSlots - 4 := by
  refine ⟨by decide, by decide, ?_⟩
  rintro ⟨i, hi⟩
  exact absurd hi (Nat.not_lt_zero i)
theorem wit_BuildBindsTheRequest :
    (0 < (withTok { Token.reset with st := .allocated }).numSlots ∧ ((withTok { Token.reset with st := .allocated }).tokAt 0).st = .allocated
      ∧ { reqWR with buddy := some 3 }.buddy = some 3 ∧ 3 < s0.numSlots)
    ∧ ((withTok builtWR).tokAt 0).st = .built
    ∧ buildWord (withTok builtWR).params.layout (withTok builtWR).params.cfg reqWR = .ok wordWR
    ∧ (withTok builtWR).params.layout.opcodeIn wordWR = some .pageWrite
    ∧ buildWord (withTok builtWR).params.layout (withTok builtWR).params.cfg { reqWR with msize := 3 } = .error .badMsize := by
  decide +kernel
theorem wit_IssueLaunchesOrIsDenied :
    ((withTok builtWR).Accepts 0 0 ∧ ((withTok builtWR).tokAt 0).st = .built ∧ (withTok builtWR).run ≠ .dead)
    ∧ (withTok builtWR).SeqRule 0 true 0 true ∧ (withTok builtWR).filterPasses wordWR = true
    ∧ { withTok builtWR with params := { params with filter := .denying [6] } }.filterPasses wordWR = false := by
  refine ⟨by decide, ?_, by decide +kernel, by decide +kernel⟩
  refine ⟨rfl, Or.inr ⟨rfl, rfl, ?_⟩⟩
  rintro ⟨b, hb, -⟩
  cases hb
/-- `builtWR` after a retry, one attempt left. -/
def again : State := withTok { builtWR with st := .done, result := .retry, ctrGeneric := 2 }

theorem wit_ReissueLaunchesAgain :
    (again.Accepts 0 0 ∧ (again.tokAt 0).st = .done ∧ (again.tokAt 0).result = .retry ∧ again.run ≠ .dead
      ∧ (again.tokAt 0).ctrGeneric < again.params.cfg.maxGeneric)
    ∧ ((again.modTok 0 fun _ => again.tokAt 0).SeqRule 0 true 0 true
      ∧ buildWord again.params.layout again.params.cfg reqWR = .ok wordWR
      ∧ (again.modTok 0 fun _ => (again.tokAt 0).bind again.params.layout reqWR wordWR).SeqRule 0 true 0 true)
    ∧ again.filterPasses (finalize again.params.layout wordWR 1 0 0 none 0) = true
    ∧ { again with params := { params with filter := .denying [6] } }.filterPasses (finalize again.params.layout wordWR 1 0 0 none 0) = false := by
  refine ⟨by decide, ⟨⟨rfl, Or.inr ⟨rfl, rfl, ?_⟩⟩, by decide +kernel, ⟨rfl, Or.inr ⟨rfl, rfl, ?_⟩⟩⟩, by decide +kernel, by decide +kernel⟩ <;>
  · rintro ⟨b, hb, -⟩
    cases hb
theorem wit_ReissueBudgetAndRejection :
    (params.cfg.maxGeneric ≤ ((withTok { rd with st := .done, result := .timeout, ctrGeneric := 3 }).tokAt 0).ctrGeneric
      ∧ ((withTok { rd with st := .done, result := .timeout, ctrGeneric := 3 }).tokAt 0).result = .timeout)
    ∧ ((withTok { rd with st := .done, result := .retry, ctrGeneric := 2 }).tokAt 0).ctrGeneric < params.cfg.maxGeneric
    ∧ (withTok rd).numSlots ≤ 4
    ∧ buildWord s0.params.layout s0.params.cfg { reqRD with d2hLen := 100 } = .error .badSize := by decide +kernel
theorem wit_GenericBudgetBounds :
    (∃ t, exec (.reissue 0 none 0) again = .next t ∧ (again.tokAt 0).ctrGeneric < (t.tokAt 0).ctrGeneric)
    ∧ ∀ kind carry, Instr.reissue 0 none 0 ≠ .alloc kind carry := ⟨⟨_, rfl, by decide +kernel⟩, fun _ _ => by simp⟩
theorem wit_DetachAndRelease :
    0 < (withTok builtWR).numSlots ∧ ((withTok builtWR).tokAt 0).st ≠ .free ∧ ((withTok { builtWR with hostLive := false }).tokAt 0).st = .built
    ∧ ((withTok { builtWR with hostLive := false }).tokAt 0).hostLive = false
    ∧ ((withTok { rd with st := .done }).tokAt 0).st = .done := by decide
theorem wit_RefreshFillsTheCache : (silent rd).lastNow ≤ 110 ∧ (0 : Nat) < (silent rd).lastNow := by decide

theorem wit_PollWithNothingNew :
    ((withTok { rd with st := .done, result := .ok }).Accepts 0 0 ∧ ((withTok { rd with st := .done, result := .ok }).tokAt 0).st = .done)
    ∧ ((quietly rd).Accepts 0 1099 ∧ (quietly rd).Polling 0 ∧ (quietly rd).Unchanged 0 ∧ (quietly rd).NotLost 0 1099
      ∧ 1099 < ((quietly rd).tokAt 0).armedTime + ((quietly rd).tokAt 0).tmoDur) := by decide
theorem wit_PollStaleIsNotDecoded :
    ((shows wr 0x83 0).Accepts 0 110 ∧ (shows wr 0x83 0).Polling 0 ∧ (shows wr 0x83 0).Changed 0 0x83
      ∧ (shows wr 0x83 0).params.layout.stPolarity 0x83 ≠ ((shows wr 0x83 0).tokAt 0).odd ∧ 110 < wr.armedTime + wr.tmoDur)
    ∧ ((shows wr 0x83 0).Accepts 0 1600 ∧ wr.armedTime + wr.tmoDur ≤ 1600) := by decide +kernel
theorem wit_PollSuccess :
    ((shows rd 0xE3 0x10).Fresh 0 110 0xE3 ∧ params.layout.stSuccess 0xE3 = true ∧ rd.cls = .read ∧ params.cfg.rdbufFromStatus = true)
    ∧ ((under (shows rd 0xC3 0) fun c => { c with rdbufFromStatus := false }).Fresh 0 110 0xC3
      ∧ (under (shows rd 0xC3 0) fun c => { c with rdbufFromStatus := false }).params.cfg.rdbufFromStatus = false)
    ∧ ((shows wr 0xC0 0).Fresh 0 110 0xC0 ∧ wr.cls ≠ .read) := by decide
theorem wit_PollProgress :
    ((shows ct 0x4B 0).FreshCode 0 110 0x4B .sequenced ∧ ct.cls = .control ∧ 110 < ct.armedTime + ct.tmoDur)
    ∧ ((shows ct 0x4B 0).FreshCode 0 2100 0x4B .sequenced ∧ ct.armedTime + ct.tmoDur ≤ 2100)
    ∧ ((shows rd 0x40 0).FreshCode 0 110 0x40 .queued ∧ 0 < (params.cfg.timeouts rd.cls).queued)
    ∧ ((shows ct 0x42 0).FreshCode 0 110 0x42 .pending ∧ 0 < (params.cfg.timeouts ct.cls).waitDev)
    ∧ ((shows wr 0x41 0).FreshCode 0 110 0x41 .received ∧ params.cfg.commitStage = .never)
    ∧ ((under (shows wr 0x41 0) fun c => { c with commitStage := .received }).FreshCode 0 110 0x41 .received
      ∧ wr.earlyCommitted = false)
    ∧ ((under (shows wr 0x41 0) fun c => { c with commitStage := .waitDev }).FreshCode 0 110 0x41 .received
      ∧ (under (shows wr 0x42 0) fun c => { c with commitStage := .waitDev }).FreshCode 0 110 0x42 .pending)
    ∧ ((under (shows ct 0x42 0) fun c => { c with tmoControl := ⟨0, 0, 0⟩ }).FreshCode 0 110 0x42 .pending
      ∧ ((under (shows ct 0x42 0) fun c => { c with tmoControl := ⟨0, 0, 0⟩ }).params.cfg.timeouts ct.cls).waitDev = 0) := by
  refine ⟨?_, ?_, ?_, ?_, ?_, ?_, ?_, ?_⟩ <;> decide +kernel
theorem wit_PollCollisionFieldAndReserved :
    (shows rd 0x43 0).FreshCode 0 110 0x43 .collision ∧ (shows { wr with earlyCommitted := true } 0x49 0).FreshCode 0 110 0x49 .fieldError
    ∧ ((shows ct 0x4E 0).Fresh 0 110 0x4E ∧ params.layout.stSuccess 0x4E = false ∧ params.layout.statusOf (params.layout.stCode 0x4E) = none)
    ∧ ((shows ct 0x5F 0).Fresh 0 110 0x5F ∧ params.layout.stSuccess 0x5F = false ∧ params.layout.statusOf (params.layout.stCode 0x5F) = none) := by decide
theorem wit_PollBudgetedAndUnknown :
    ((counted (shows rd 0x46 0) ⟨0, 0, 1⟩).FreshCode 0 110 0x46 .eccError ∧ ((counted (shows rd 0x46 0) ⟨0, 0, 1⟩).slotAt 0).ctr.ecc < params.cfg.maxEcc)
    ∧ ((counted (shows rd 0x46 0) ⟨0, 0, 2⟩).FreshCode 0 110 0x46 .eccError ∧ params.cfg.maxEcc ≤ ((counted (shows rd 0x46 0) ⟨0, 0, 2⟩).slotAt 0).ctr.ecc)
    ∧ ((counted (shows wr 0x45 0) ⟨1, 0, 0⟩).FreshCode 0 110 0x45 .xsumError ∧ ((counted (shows wr 0x45 0) ⟨1, 0, 0⟩).slotAt 0).ctr.xsum < params.cfg.maxXsum)
    ∧ ((counted (shows wr 0x45 0) ⟨2, 0, 0⟩).FreshCode 0 110 0x45 .xsumError ∧ params.cfg.maxXsum ≤ ((counted (shows wr 0x45 0) ⟨2, 0, 0⟩).slotAt 0).ctr.xsum)
    ∧ ((shows wr 0x4D 0).FreshCode 0 110 0x4D .unknownHw ∧ params.cfg.haltOnWriteError = false)
    ∧ ((under (shows wr 0x4D 0) fun c => { c with haltOnWriteError := true }).FreshCode 0 110 0x4D .unknownHw ∧ wr.cls = .write) := by
  refine ⟨?_, ?_, ?_, ?_, ?_, ?_⟩ <;> decide
/-- The fault subtype slot 0's extended status names. -/
def faultIn (s : State) : Option FaultCode := s.params.layout.faultOf ((s.readExt 0).extractLsb' 0 8)

theorem wit_PollIllegalCommand :
    ((shows ct 0x4A 0).FreshCode 0 110 0x4A .illegalCmd ∧ params.layout.stExtend 0x4A = false)
    ∧ ((shows wr 0x6A 0xFF).FreshCode 0 110 0x6A .illegalCmd ∧ params.layout.stExtend 0x6A = true ∧ faultIn (shows wr 0x6A 0xFF) = some .fatal)
    ∧ ((under (shows wr 0x6A 0xFE) fun c => { c with haltOnWriteError := true }).FreshCode 0 110 0x6A .illegalCmd
      ∧ faultIn (shows wr 0x6A 0xFE) = some .unknownCmd ∧ wr.cls = .write)
    ∧ ((shows ct 0x6A 0xFE).FreshCode 0 110 0x6A .illegalCmd ∧ params.cfg.haltOnWriteError = false)
    ∧ ((shows ct 0x6A 0xF9).FreshCode 0 110 0x6A .illegalCmd ∧ faultIn (shows ct 0x6A 0xF9) = none) := by decide +kernel
theorem wit_PollRetryableFault :
    ([(shows wr 0x6A 0xFB, FaultCode.xsum), (counted (shows wr 0x6A 0xFB) ⟨1, 0, 0⟩, .xsum), (counted (shows wr 0x6A 0xFB) ⟨2, 0, 0⟩, .xsum),
      (shows wr 0x6A 0xFA, .wepTimeout), (counted (shows wr 0x6A 0xFA) ⟨0, 1, 0⟩, .wepTimeout), (counted (shows wr 0x6A 0xFA) ⟨0, 2, 0⟩, .wepTimeout),
      (shows rd 0x6A 0xFC, .ecc), (shows rd 0x6A 0x12FD, .cmdOffset)].all fun x =>
        decide (x.1.FreshCode 0 110 0x6A .illegalCmd) && decide (faultIn x.1 = some x.2)) = true
    ∧ params.layout.stExtend 0x6A = true ∧ params.cfg.maxXsum = 2 ∧ params.cfg.maxWep = 2 := by decide +kernel
theorem wit_PollExecutionErrorAndWarning :
    ((shows tr 0x44 0).FreshCode 0 110 0x44 .exeError ∧ tr.devdir = true) ∧ ((shows ct 0x64 8).FreshCode 0 110 0x64 .exeError ∧ ct.devdir = false)
    ∧ ((shows rd 0x6C 1).FreshCode 0 110 0x6C .devWarning ∧ 0 < (params.cfg.timeouts rd.cls).waitDev) := by decide +kernel
theorem wit_PollDuplicate :
    ((shows { rd with buddy := some 1 } 0x48 0).FreshCode 0 110 0x48 .dupError ∧ { rd with buddy := some 1 }.buddy ≠ none)
    ∧ ((shows { wr with buddy := some 1 } 0x48 0).FreshCode 0 110 0x48 .dupError ∧ wr.cls ≠ .read)
    ∧ ((shows wr 0x48 0).FreshCode 0 110 0x48 .dupError ∧ wr.buddy = none ∧ wr.hostLive = true)
    ∧ ((shows rd 0x48 0).FreshCode 0 110 0x48 .dupError ∧ rd.buddy = none ∧ rd.hostLive = false) := by decide
theorem wit_PollOutOfOrder :
    ((shows ct 0x67 7).FreshCode 0 110 0x67 .ooo ∧ 110 < ct.armedTime + ct.tmoDur ∧ ct.cls = .control)
    ∧ ((shows ct 0x67 7).FreshCode 0 2100 0x67 .ooo ∧ ct.armedTime + ct.tmoDur ≤ 2100)
    ∧ ((shows rd 0x47 0).FreshCode 0 110 0x47 .ooo ∧ rd.cls ≠ .control ∧ params.layout.stExtend 0x47 = false)
    ∧ ((under (shows wr 0x67 7) fun c => { c with oooPolicy := .off }).FreshCode 0 110 0x67 .ooo ∧ params.layout.stExtend 0x67 = true)
    ∧ (under (shows wr 0x67 7) fun c => { c with oooPolicy := .delayed }).FreshCode 0 110 0x67 .ooo := by decide +kernel
theorem wit_OutOfOrderArmsTheMissing :
    ((shows wr 0x67 0).FreshCode 0 110 0x67 .ooo ∧ 110 < wr.armedTime + wr.tmoDur ∧ wr.cls ≠ .control ∧ params.layout.stExtend 0x67 = true
      ∧ params.cfg.oooPolicy = .quick ∧ 0 < params.cfg.quickTimeout wr.cls)
    ∧ ((shows wr 0x67 0).FreshCode 0 1600 0x67 .ooo ∧ wr.armedTime + wr.tmoDur ≤ 1600) := by decide +kernel
/-- Slot 0 reports OOO for itself, replayed at once. -/
def replays : State := under (shows wr 0x67 0) fun c => { c with oooQuickWrite := 0 }
theorem wit_OutOfOrderReplaysAtOnce :
    replays.FreshCode 0 110 0x67 .ooo ∧ replays.FreshCode 0 1600 0x67 .ooo ∧ replays.params.cfg.oooPolicy = .quick
    ∧ replays.params.cfg.quickTimeout wr.cls = 0 ∧ replays.seqSearch 0 = [0] := by decide +kernel
/-- The rows of spec/95_test_vectors.md section 2.7, `active = [2, 0, 1]`. -/
theorem wit_SequenceSearch :
    ([(9, 5, 5, some 1, none, 5), (9, 5, 5, none, none, 5), (5, 5, 5, none, some 0, 5), (9, 5, 5, none, none, 6), (9, 5, 7, some 1, none, 5)].map
      fun (x : BitVec 32 × BitVec 32 × BitVec 32 × Option Nat × Option Nat × BitVec 32) =>
        { s0 with
          active := [2, 0, 1],
          slots := [⟨{ rd with seq := x.2.1, buddy := x.2.2.2.1 }, 1, RetryCtr.zero, none⟩, ⟨{ rd with seq := x.2.2.1 }, 1, RetryCtr.zero, none⟩,
            ⟨{ rd with seq := x.1, buddy := x.2.2.2.2.1 }, 1, RetryCtr.zero, none⟩, Slot.reset] }.seqSearch x.2.2.2.2.2)
    = [[0, 1], [0], [2, 0], [], [0]] := by decide +kernel
/-- The first time the command looks lost, and (O2 of spec/95_test_vectors.md) with the deadline passed too. -/
theorem wit_LostCommandIsRewritten :
    ([({ rd with tmoDur := 5000 }, 1101), (rd, 1160)].all fun (x : Token × Nat) =>
      decide ((silent x.1).Accepts 0 x.2) && decide ((silent x.1).Polling 0) && decide ((silent x.1).Unchanged 0)
        && decide (x.1.touchedTime = none) && decide (params.cfg.lostThresh < x.2 - x.1.issueTime)
        && decide (x.1.lostRefreshes < params.cfg.lostMax) && decide ((silent x.1).run ≠ .dead)) = true
    ∧ params.cfg.lostThresh ≠ 0 ∧ 1101 < rd.armedTime + 5000 ∧ rd.armedTime + rd.tmoDur ≤ 1160 := by decide +kernel

/-- The hypotheses the two statements on deadlines share, at the first time the deadline has passed. -/
def due (s : State) : Bool :=
  decide (s.Accepts 0 1100) && decide (s.Polling 0) && decide (s.Unchanged 0) && decide (s.NotLost 0 1100)
    && decide ((s.tokAt 0).armedTime + (s.tokAt 0).tmoDur ≤ 1100)

theorem wit_TimeoutGuardAndRecovery :
    (due (silent rd) = true ∧ (silent rd).refreshGeneral = none)
    ∧ (due { silent rd with refreshGeneral := some 99 } = true ∧ 99 < ((silent rd).tokAt 0).armedTime)
    ∧ (due (under (quietly { rd with stage := .queued, rdbufRecover := 2 }) fun c => { c with rdbufTracking := true }) = true
      ∧ (under (quietly { rd with stage := .queued, rdbufRecover := 2 }) fun c => { c with rdbufTracking := true }).rdbufRecoverApplies 0 = true) := by
  decide +kernel
theorem wit_TimeoutReplayAndFailure :
    ([quietly rd, quietly { rd with oooMissing := true }, quietly { rd with oooReplay := true },
      { quietly { rd with oooMissing := true } with run := .dead }, { quietly rd with refreshGeneral := some 100 },
      under (quietly { rd with stage := .queued, rdbufRecover := 3 }) fun c => { c with rdbufTracking := true }].all fun s =>
        due s && !s.starved 0 && !s.rdbufRecoverApplies 0) = true := by decide +kernel
theorem wit_CommandWriteReadsBack : ¬ s0.inCmdSlot 0 64 ∧ s0.inCmdSlot 0 63 ∧ s0.inCmdSlot 0 0 := by
  simp only [State.inCmdSlot]
  decide

end Sys2Proof.Tests
end

section
/-! The run state (10_state.md R43, 60_exceptions.md R410, R412).  Every instruction but RESET does one of two things to it:
it is `Calm`, and leaves the run state, gives no ABORT_HARD and emits no Halted; or it `Halts` one slot, by the one
abort-hard a POLL can come to.  The relations compare a later state with an earlier one, so that the calm steps of an
operation chain by one lemma per named update. -/

namespace Sys2Proof.Machine

open Sys2Proof

/-- From `s` to `t` nothing was aborted hard. -/
structure State.Calm (s t : State) : Prop where
  run : t.run = s.run
  numSlots : t.numSlots = s.numSlots
  result : ∀ j, (t.tokAt j).result = .abortHard → (s.tokAt j).result = .abortHard
  halted : ∀ j w, Event.halted j w ∈ t.resp.events → Event.halted j w ∈ s.resp.events

/-- From `s` to `t` the token of slot `i` was aborted hard, with reason `w`, and no other event Halted came. -/
structure State.Halts (s : State) (i : Nat) (w : Reason) (t : State) : Prop where
  run : t.run = .dead
  result : (t.tokAt i).result = .abortHard
  why : (t.tokAt i).why = some w
  emitted : Event.halted i w ∈ t.resp.events
  halted : ∀ j v, Event.halted j v ∈ t.resp.events → Event.halted j v ∈ s.resp.events ∨ (j = i ∧ v = w)

/-- From `s` to `t` at most the token of slot `i` was aborted hard. -/
def State.CalmOrHalts (s : State) (i : Nat) (t : State) : Prop := s.Calm t ∨ ∃ w, s.Halts i w t

/-! ### The named updates -/

section
variable {s u v : State}

theorem State.Calm.lt {i : Nat} (h : s.Calm u) (hi : i < s.numSlots) : i < u.numSlots := by rwa [h.numSlots]

theorem State.Calm.refl (s : State) : s.Calm s := ⟨rfl, rfl, fun _ h => h, fun _ _ h => h⟩

theorem State.Calm.trans (h : s.Calm u) (k : u.Calm v) : s.Calm v :=
  ⟨k.run.trans h.run, k.numSlots.trans h.numSlots, fun j x => h.result j (k.result j x),
    fun j w x => h.halted j w (k.halted j w x)⟩

/-- An update that touches neither the slots, the run state nor the events is calm. -/
theorem State.Calm.frame (h : s.Calm u) (hs : v.slots = u.slots) (hr : v.run = u.run) (he : v.resp.events = u.resp.events) :
    s.Calm v := by
  refine h.trans ⟨hr, ?_, fun j x => ?_, fun j w x => he ▸ x⟩
  · rw [State.numSlots, State.numSlots, hs]
  · rwa [State.tokAt, State.slotAt, hs] at x

theorem State.Calm.modSlot {i : Nat} {f : Slot → Slot} (hf : ∀ sl, (f sl).tok.result = .abortHard → sl.tok.result = .abortHard)
    (h : s.Calm u) : s.Calm (u.modSlot i f) := by
  refine h.trans ⟨rfl, by simp, fun j x => ?_, fun _ _ x => x⟩
  rw [State.tokAt, State.slotAt_modSlot] at x
  split at x
  · exact hf _ x
  · exact x

theorem State.Calm.modTok {i : Nat} {f : Token → Token} (hf : ∀ t, (f t).result = .abortHard → t.result = .abortHard)
    (h : s.Calm u) : s.Calm (u.modTok i f) :=
  .modSlot (fun sl => hf sl.tok) h

theorem State.Calm.modCtr {i : Nat} {f : RetryCtr → RetryCtr} (h : s.Calm u) : s.Calm (u.modCtr i f) :=
  .modSlot (fun _ x => x) h

theorem State.Calm.setResult {i : Nat} {r : Result} {w : Reason} (hr : r ≠ .abortHard) (h : s.Calm u) :
    s.Calm (u.setResult i r w) :=
  .modTok (fun _ x => absurd x hr) h

theorem State.Calm.emit {e : Event} (he : ∀ j w, e ≠ .halted j w) (h : s.Calm u) : s.Calm (u.emit e) := by
  refine h.trans ⟨rfl, rfl, fun _ x => x, fun j w x => ?_⟩
  obtain x | x := List.mem_append.1 x
  · exact x
  · exact absurd (List.mem_singleton.1 x).symm (he j w)

theorem State.Calm.count {f : Stats → Stats} (h : s.Calm u) : s.Calm (u.count f) := h.frame rfl rfl rfl

theorem State.Calm.writeCmd {i : Nat} {W : CmdWord} (h : s.Calm u) : s.Calm (u.writeCmd i W) :=
  h.frame (State.writeCmd_slots u i W) (State.writeCmd_run u i W) (congrArg Response.events (State.writeCmd_resp u i W))

theorem State.Calm.atTime {now : Nat} (h : s.Calm u) : s.Calm (u.atTime now) := h.frame rfl rfl rfl

theorem State.Calm.respondSlot {i : Nat} (h : s.Calm u) : s.Calm (u.respondSlot i) := h.frame rfl rfl rfl

theorem State.Calm.respond {d : Bool} {r : Result} (h : s.Calm u) : s.Calm (u.respond d r) := h.frame rfl rfl rfl

/-- A branch of an operation is calm when both its arms are. -/
theorem State.Calm.ite {c : Prop} [Decidable c] (h : s.Calm u) (k : s.Calm v) : s.Calm (if c then u else v) := by
  split
  · exact h
  · exact k

/-- The abort-hard turns a calm start into the halt of its slot (60_exceptions.md R410). -/
theorem State.Halts.abortHard {i : Nat} {w : Reason} (hi : i < s.numSlots) (h : s.Calm u) : s.Halts i w (u.abortHard i w) := by
  have hu : i < u.numSlots := h.lt hi
  have ht : (u.abortHard i w).tokAt i = { u.tokAt i with result := .abortHard, why := some w } :=
    State.tokAt_setResult_self u i .abortHard w hu
  have he : (u.abortHard i w).resp.events = u.resp.events ++ [.halted i w] := rfl
  refine ⟨rfl, by rw [ht], by rw [ht], by simp [he], fun j v x => ?_⟩
  rw [he, List.mem_append, List.mem_singleton, Event.halted.injEq] at x
  exact x.imp_left (h.halted j v)

theorem State.Calm.then_halts {i : Nat} {w : Reason} (h : s.Calm u) (k : u.Halts i w v) : s.Halts i w v :=
  ⟨k.run, k.result, k.why, k.emitted, fun j x y => (k.halted j x y).imp_left (h.halted j x)⟩

theorem State.Calm.then_calmOrHalts {i : Nat} (h : s.Calm u) (k : u.CalmOrHalts i v) : s.CalmOrHalts i v :=
  k.imp h.trans fun ⟨w, k⟩ => ⟨w, h.then_halts k⟩

end

/-! ### Launches and re-writes (41_token_pool.md R251, 43_timeout_ooo.md R360) -/

section
variable {s u : State}

theorem State.Calm.launch {i now : Nat} (h : s.Calm u) : s.Calm (u.launch i now) := by
  cases hf : u.filterAllows (u.launchWord i)
  · rw [State.launch, if_pos hf]
    exact .respond (.modTok (fun _ x => by cases x) h)
  · have hl : s.Calm (u.modSlot i fun sl => { sl with
        odd := u.nextOdd i,
        tok := sl.tok.launched u.params.cfg (u.nextOdd i) (u.assignSeq i) (u.launchWord i) sl.cache now }) :=
      .modSlot (fun _ x => by cases x) h
    rw [State.launch_allowed u i now hf]
    exact hl.frame rfl rfl rfl

theorem State.Calm.rewrite {j : Nat} {cause : RewriteCause} {now : Nat} (h : s.Calm u) : s.Calm (u.rewrite j cause now) :=
  .ite h (.emit nofun (.modTok (fun _ x => x) (.writeCmd h)))

/-! ### Lost commands, timeouts and out-of-order recovery (43_timeout_ooo.md) -/

theorem State.lostCheck_calm (s : State) (i now : Nat) : s.Calm (s.lostCheck i now) :=
  .ite (.count (.modTok (fun _ x => x) (.rewrite (.refl s)))) (.refl s)

theorem State.oooTimeout_calm (s : State) (i now : Nat) : s.Calm (s.oooTimeout i now) := by
  rw [State.oooTimeout]
  split
  · exact .modTok (fun _ x => x) (.count (.rewrite (.refl s)))
  · exact .modTok (fun _ x => x) (.count (.rewrite (.refl s)))

theorem Token.clearDealloc_result (t : Token) (c : Cfg) : (t.clearDealloc c).result = t.result := by
  rw [Token.clearDealloc]
  split <;> rfl

theorem State.realTimeout_calm (s : State) (i : Nat) : s.Calm (s.realTimeout i) := by
  rw [State.realTimeout]
  exact .setResult nofun (.modTok (fun t x => (t.clearDealloc_result _).symm.trans x) (.count (.ite (.refl s) (.emit nofun (.refl s)))))

theorem State.timeoutHandle_calm (s : State) (i now : Nat) : s.Calm (s.timeoutHandle i now) := by
  rw [State.timeoutHandle]
  split
  · exact .count (.refl s)
  split
  · exact .modTok (fun _ x => x) (.emit nofun (.refl s))
  split
  · exact s.oooTimeout_calm i now
  · exact s.realTimeout_calm i

theorem State.timeoutCheck_calm (s : State) (i now : Nat) : s.Calm (s.timeoutCheck i now) :=
  .ite (s.timeoutHandle_calm i now) (.refl s)

theorem State.Calm.armMissing {now qt : Nat} {l : List Nat} (h : s.Calm u) : s.Calm (u.armMissing now qt l) := by
  induction l generalizing u with
  | nil => exact h
  | cons j js ih => exact ih (.modTok (fun _ x => x) h)

theorem State.Calm.replayNow {now : Nat} {l : List Nat} (h : s.Calm u) : s.Calm (u.replayNow now l) := by
  induction l generalizing u with
  | nil => exact h
  | cons j js ih => exact .ite h (ih (.count (.rewrite h)))

theorem State.Calm.oooHandle {i : Nat} {v : Word} {now : Nat} (h : s.Calm u) : s.Calm (u.oooHandle i v now) := by
  rw [State.oooHandle]
  split
  · exact .emit nofun h
  · exact .ite (.armMissing h) (.replayNow h)
  · exact .modTok (fun _ x => x) h

/-! ### The decode of a status byte (42_status_decoder.md) -/

theorem State.Calm.extFetched {i : Nat} (h : s.Calm u) : s.Calm (u.extFetched i) := by
  rw [State.extFetched]
  exact .modTok (fun _ x => x) h

theorem State.Calm.freeWbufs {i : Nat} (h : s.Calm u) : s.Calm (u.freeWbufs i) :=
  .ite h (.modTok (fun _ x => x) (.emit nofun h))

theorem State.Calm.logExt {i : Nat} {b : Byte} {level : LogLevel} {what : LogWhat} (h : s.Calm u) :
    s.Calm (u.logExt i b level what) :=
  .ite (.emit nofun (.extFetched h)) (.emit nofun h)

theorem State.successBuffers_calm (s : State) (i : Nat) (b : Byte) : s.Calm (s.successBuffers i b) := by
  rw [State.successBuffers]
  split
  · exact .ite (.emit nofun (.modTok (fun _ x => x) (.refl s))) (.refl s)
  · exact .freeWbufs (.refl s)

theorem State.success_calm (s : State) (i : Nat) (b : Byte) : s.Calm (s.success i b) := by
  have h := s.successBuffers_calm i b
  rw [State.success]
  exact .modTok (fun _ x => by cases x) (.ite (.emit nofun (.count (.extFetched h))) h)

theorem State.Calm.earlyCommit {i : Nat} (h : s.Calm u) : s.Calm (u.earlyCommit i) :=
  .ite (.emit nofun (.modTok (fun _ x => x) h)) h

theorem State.progress_calm (s : State) (i : Nat) (c : StatusCode) (now : Nat) : s.Calm (s.progress i c now) := by
  have h : s.Calm (s.modTok i fun t => { t.arm now (s.params.cfg.tmo t.cls (progressStage c)) with stage := progressStage c }) :=
    .modTok (fun _ x => x) (.refl s)
  rw [State.progress]
  split
  · exact .refl s
  · exact .ite (.earlyCommit (.freeWbufs h)) h

theorem State.decFieldError_calm (s : State) (i : Nat) : s.Calm (s.decFieldError i) :=
  .setResult nofun (.modTok (fun t x => by split at x <;> exact x) (.count (.refl s)))

theorem State.decEccError_calm (s : State) (i : Nat) : s.Calm (s.decEccError i) :=
  .ite (.setResult nofun (.modCtr (.count (.refl s)))) (.setResult nofun (.modCtr (.count (.refl s))))

theorem State.decDevWarning_calm (s : State) (i : Nat) (b : Byte) (now : Nat) : s.Calm (s.decDevWarning i b now) := by
  rw [State.decDevWarning]
  exact .modTok (fun _ x => x) (.logExt (.count (.refl s)))

theorem State.decDupError_calm (s : State) (i : Nat) : s.Calm (s.decDupError i) := by
  rw [State.decDupError]
  split
  · exact .modTok (fun _ x => by cases x) (.ite (.freeWbufs (.count (.refl s))) (.count (.refl s)))
  · exact .ite (.setResult nofun (.count (.refl s))) (.setResult nofun (.count (.refl s)))

theorem State.decOoo_calm (s : State) (i : Nat) (b : Byte) (now : Nat) : s.Calm (s.decOoo i b now) := by
  rw [State.decOoo]
  split
  · exact .refl s
  · exact .ite (.oooHandle (.extFetched (.modTok (fun _ x => x) (.count (.refl s))))) (.modTok (fun _ x => x) (.count (.refl s)))

theorem State.Calm.fcXsum {i : Nat} (h : s.Calm u) : s.Calm (u.fcXsum i) :=
  .ite (.setResult nofun (.modCtr h)) (.setResult nofun (.modCtr h))

theorem State.Calm.fcWep {i : Nat} (h : s.Calm u) : s.Calm (u.fcWep i) :=
  .ite (.setResult nofun (.modCtr h)) (.setResult nofun (.modCtr h))

/-- Setting an ABORT and the flag `unspec_seen` (42_status_decoder.md R318, R340). -/
theorem State.Calm.unspecAbort {i : Nat} {w : Reason} (h : s.Calm u) :
    s.Calm { u.setResult i .abort w with unspecSeen := true } :=
  (State.Calm.setResult nofun h : s.Calm (u.setResult i .abort w)).frame rfl rfl rfl

theorem State.CalmOrHalts.unknownHw {i : Nat} (hi : i < s.numSlots) (h : s.Calm u) : s.CalmOrHalts i (u.unknownHw i) := by
  rw [State.unknownHw]
  split
  · exact .inr ⟨_, .abortHard hi (.count h)⟩
  · exact .inl (.setResult nofun (.count h))

theorem State.decIllegal_calmOrHalts (s : State) (i : Nat) (b : Byte) (hi : i < s.numSlots) :
    s.CalmOrHalts i (s.decIllegal i b) := by
  have h : s.Calm (s.count fun c => { c with illegal := c.illegal + 1 }) := .count (.refl s)
  rw [State.decIllegal]
  split
  · exact .inl (.setResult nofun h)
  dsimp only
  split
  · exact .inr ⟨_, .abortHard hi (.extFetched h)⟩
  · exact .inl (.fcXsum (.extFetched h))
  · exact .inl (.fcWep (.extFetched h))
  · exact .inl (.setResult nofun (.extFetched h))
  · exact .inl (.setResult nofun (.extFetched h))
  · exact .unknownHw hi (.extFetched h)
  · exact .inl (.unspecAbort (.extFetched h))

theorem State.decExeError_calmOrHalts (s : State) (i : Nat) (b : Byte) (hi : i < s.numSlots) :
    s.CalmOrHalts i (s.decExeError i b) := by
  rw [State.decExeError]
  split
  · exact .inr ⟨_, .abortHard hi (.logExt (.count (.refl s)))⟩
  · exact .inl (.setResult nofun (.count (.refl s)))

theorem State.decXsumError_calmOrHalts (s : State) (i : Nat) (hi : i < s.numSlots) : s.CalmOrHalts i (s.decXsumError i) := by
  rw [State.decXsumError]
  split
  · exact .inl (.setResult nofun (.modCtr (.count (.refl s))))
  · exact .unknownHw hi (.modCtr (.count (.refl s)))

/-- The decode of a failure code aborts hard by ILLEGAL_CMD, EXE_ERROR, UNKNOWN_HW or XSUM_ERROR alone. -/
theorem State.decodeCode_calmOrHalts (s : State) (i : Nat) (b : Byte) (now : Nat) (c : StatusCode) (hi : i < s.numSlots) :
    s.CalmOrHalts i (s.decodeCode i b now c) := by
  cases c with
  | queued => exact .inl (s.progress_calm i .queued now)
  | received => exact .inl (s.progress_calm i .received now)
  | pending => exact .inl (s.progress_calm i .pending now)
  | sequenced => exact .inl (s.progress_calm i .sequenced now)
  | collision => exact .inl (.setResult nofun (.count (.refl s)))
  | fieldError => exact .inl (s.decFieldError_calm i)
  | illegalCmd => exact s.decIllegal_calmOrHalts i b hi
  | exeError => exact s.decExeError_calmOrHalts i b hi
  | eccError => exact .inl (s.decEccError_calm i)
  | unknownHw => exact .unknownHw hi (.refl s)
  | xsumError => exact s.decXsumError_calmOrHalts i hi
  | devWarning => exact .inl (s.decDevWarning_calm i b now)
  | dupError => exact .inl (s.decDupError_calm i)
  | ooo => exact .inl (s.decOoo_calm i b now)

/-- The decode of a byte: the missing mark cleared, then the success, the failure of a code, or the reserved code. -/
theorem State.decodeStatus_cases (s u : State) (i : Nat) (b : Byte) (now : Nat)
    (hu : u = s.modTok i fun t => { t with oooMissing := false }) :
    s.decodeStatus i b now = u.success i b ∨ (∃ c, s.decodeStatus i b now = u.decodeCode i b now c)
      ∨ s.decodeStatus i b now = u.decReserved i := by
  rw [State.decodeStatus, ← hu]
  by_cases hs : u.params.layout.stSuccess b = true
  · exact .inl (if_pos hs)
  · right
    rw [if_neg hs]
    cases hc : u.params.layout.statusOf (u.params.layout.stCode b) with
    | none => exact .inr rfl
    | some c => exact .inl ⟨c, by cases c <;> rfl⟩

theorem State.decodeStatus_calmOrHalts (s : State) (i : Nat) (b : Byte) (now : Nat) (hi : i < s.numSlots) :
    s.CalmOrHalts i (s.decodeStatus i b now) := by
  have h : s.Calm (s.modTok i fun t => { t with oooMissing := false }) := .modTok (fun _ x => x) (.refl s)
  obtain e | ⟨c, e⟩ | e := s.decodeStatus_cases _ i b now rfl
  · rw [e]; exact .inl (h.trans (State.success_calm _ i b))
  · rw [e]; exact h.then_calmOrHalts (State.decodeCode_calmOrHalts _ i b now c (by simpa using hi))
  · rw [e]; exact .inl (.unspecAbort h)

/-! ### POLL (42_status_decoder.md R280, R281) -/

theorem State.pollStatus_calmOrHalts (s : State) (i now : Nat) (hi : i < s.numSlots) :
    s.CalmOrHalts i (s.pollStatus i now) := by
  rw [State.pollStatus]
  split
  · exact .inl (.refl s)
  next b _ =>
    have h : s.Calm (s.observe i b now) :=
      .emit nofun (.count (.modTok (fun _ x => x) (.refl s)))
    dsimp only
    split
    · exact h.then_calmOrHalts (State.decodeStatus_calmOrHalts _ i b now (h.lt hi))
    · exact .inl h

theorem State.Calm.whilePending {i : Nat} {f : State → State} (h : s.Calm u) (hf : u.Calm (f u)) :
    s.Calm (u.whilePending i f) :=
  .ite (h.trans hf) h

/-- A token aborted hard is pending no more: the later steps of POLL leave it alone. -/
theorem State.Halts.whilePending {i : Nat} {w : Reason} (h : s.Halts i w u) (f : State → State) : u.whilePending i f = u := by
  rw [State.whilePending, if_neg (by rw [h.result]; decide)]

theorem State.Calm.finish {i : Nat} (h : s.Calm u) : s.Calm (u.finish i) := by
  have hd : s.Calm (u.modTok i fun t => { t with st := .done }) := .modTok (fun _ x => x) h
  obtain ⟨-, e⟩ | ⟨-, e⟩ := u.finish_cases i
  · rw [e]
    exact .respond h
  · rw [e]
    exact hd.frame rfl rfl rfl

theorem State.finish_tokAt (s : State) (i j : Nat) :
    (s.finish i).tokAt j = s.tokAt j ∨ (s.finish i).tokAt j = { s.tokAt j with st := .done } := by
  obtain ⟨-, e⟩ | ⟨-, e⟩ := s.finish_cases i
  · exact .inl (by rw [e, State.respond_tokAt])
  · have ht : (s.finish i).tokAt j = (s.modTok i fun t => { t with st := .done }).tokAt j := by rw [e]; rfl
    rw [ht, State.tokAt_modTok]
    split
    · exact .inr rfl
    · exact .inl rfl

theorem State.Halts.finish {i : Nat} {w : Reason} (h : s.Halts i w u) : s.Halts i w (u.finish i) := by
  have hc : u.Calm (u.finish i) := .finish (.refl u)
  have he : (u.finish i).resp.events = u.resp.events := by
    obtain ⟨-, e⟩ | ⟨-, e⟩ := u.finish_cases i
    · rw [e, State.respond_resp]
    · rw [e]
  refine ⟨hc.run.trans h.run, ?_, ?_, he ▸ h.emitted, he ▸ h.halted⟩
  · obtain e | e := u.finish_tokAt i i <;> rw [e] <;> exact h.result
  · obtain e | e := u.finish_tokAt i i <;> rw [e] <;> exact h.why

theorem State.pollActive_calmOrHalts (s : State) (i now : Nat) (hi : i < s.numSlots) :
    s.CalmOrHalts i (s.pollActive i now) := by
  rw [State.pollActive]
  obtain h | ⟨w, h⟩ := s.pollStatus_calmOrHalts i now hi
  · exact .inl (.finish (.whilePending (.whilePending h (State.lostCheck_calm _ i now)) (State.timeoutCheck_calm _ i now)))
  · rw [h.whilePending, h.whilePending]
    exact .inr ⟨w, h.finish⟩

theorem State.opPoll_calmOrHalts {t : State} {i now : Nat} (h : s.opPoll i now = .ok t) : s.CalmOrHalts i t := by
  have ha : s.Calm (s.atTime now) := .atTime (.refl s)
  unfold State.opPoll at h
  split_ifs at h with hi
  · cases h
    exact .inl (.respond ha)
  · cases h
    exact ha.then_calmOrHalts (State.pollActive_calmOrHalts _ i now (Nat.lt_of_not_le hi))

end

/-! ### The other operations (41_token_pool.md) -/

section
variable {s t : State}

theorem State.opAlloc_calm {kind : Byte} {carry : Nat} (h : s.opAlloc kind carry = .ok t) : s.Calm t := by
  have hd : s.Calm s.drawn := (State.Calm.refl s).frame rfl rfl rfl
  unfold State.opAlloc at h
  split_ifs at h
  cases h
  exact .respondSlot (.modTok (fun _ x => x) hd)

theorem State.opAllocId_calm {i : Nat} {kind : Byte} (h : s.opAllocId i kind = .ok t) : s.Calm t := by
  unfold State.opAllocId at h
  split_ifs at h
  cases h
  exact .respondSlot (.modTok (fun _ x => x) (.refl s))

theorem State.opBuild_calm {i : Nat} {req : BuildReq} (h : s.opBuild i req = .ok t) : s.Calm t := by
  unfold State.opBuild at h
  split_ifs at h
  split at h
  · cases h
  · cases h
    exact .modTok (fun _ x => x) (.refl s)

theorem State.opIssue_calm {i : Nat} {dealloc : Option (BitVec 5)} {xsum : BitVec 128} {now : Nat}
    (h : s.opIssue i dealloc xsum now = .ok t) : s.Calm t := by
  unfold State.opIssue at h
  split_ifs at h
  cases h
  exact .launch (.modTok (fun _ x => x) (.atTime (.refl s)))

theorem State.rebind_calm {i : Nat} {req : Option BuildReq} (h : s.rebind i req = .ok t) : s.Calm t := by
  unfold State.rebind at h
  split at h
  · cases h
    exact .refl s
  split_ifs at h
  split at h
  · cases h
  · cases h
    exact .modTok (fun _ x => x) (.refl s)

theorem State.opReissue_calm {i : Nat} {req : Option BuildReq} {now : Nat} (h : s.opReissue i req now = .ok t) : s.Calm t := by
  have ha : s.Calm (s.atTime now) := .atTime (.refl s)
  unfold State.opReissue at h
  split_ifs at h
  · cases h
    exact .respond (.setResult nofun ha)
  split at h
  · cases h
  next hb =>
    cases h
    exact .launch (.modTok (fun _ x => x) (ha.trans (State.rebind_calm hb)))

theorem State.opDetach_calm {i : Nat} (h : s.opDetach i = .ok t) : s.Calm t := by
  unfold State.opDetach at h
  split_ifs at h
  cases h
  exact .modTok (fun _ x => x) (.refl s)

theorem State.opRelease_calm {i : Nat} (h : s.opRelease i = .ok t) : s.Calm t := by
  unfold State.opRelease at h
  split_ifs at h
  cases h
  exact .modSlot (fun _ x => by cases x) (.emit nofun (.refl s))

theorem State.refreshSlots_tokAt (s : State) (y : TokenType) (j : Nat) : (s.refreshSlots y).tokAt j = s.tokAt j := by
  simp only [State.tokAt, State.slotAt, State.refreshSlots, List.getD_eq_getElem?_getD, List.getElem?_mapIdx]
  cases s.slots[j]? with
  | none => rfl
  | some sl => simp only [Option.map_some, Option.getD_some]; split <;> rfl

theorem State.Calm.refreshSlots {u : State} {y : TokenType} (h : s.Calm u) : s.Calm (u.refreshSlots y) :=
  h.trans ⟨rfl, by simp, fun j x => by rwa [State.refreshSlots_tokAt] at x, fun _ _ x => x⟩

theorem State.Calm.setRefreshTime {u : State} {y : TokenType} {now : Nat} (h : s.Calm u) : s.Calm (u.setRefreshTime y now) :=
  h.frame (by simp) (by simp) (by simp)

theorem State.opRefresh_calm {y : TokenType} {now : Nat} (h : s.opRefresh y now = .ok t) : s.Calm t := by
  unfold State.opRefresh at h
  split_ifs at h
  cases h
  exact .setRefreshTime (.refreshSlots (.atTime (.refl s)))

/-! ### Every instruction -/

/-- The thirty-one commands are the encoder run on a request. -/
theorem exec_command (i : Instr) (s : State) (h : i.opBytes = none) : ∃ hd st req, exec i s = s.encodeCommand hd st req := by
  cases i
  case opReset | encBuild | encFinalize | alloc | allocId | build | issue | statusRefresh | poll | reissue | detach | release =>
    exact absurd h nofun
  all_goals exact ⟨_, _, _, rfl⟩

/-- An answer without events, as an error or a word is, changes nothing but the response. -/
theorem State.answered_calm (s : State) {r : Response} (h : r.events = []) : s.begin.Calm (s.answered r) :=
  (State.Calm.refl s.begin).frame rfl rfl h

/-- An operation whose effect is calm is calm, also where it answers an error. -/
theorem State.answer_calm {r : Except OpError State} (h : s.answer r = .next t) (hr : ∀ u, r = .ok u → s.begin.Calm u) :
    s.begin.Calm t := by
  obtain e | ⟨e, -, rfl⟩ := s.answer_cases t r h
  · exact hr t e
  · exact s.answered_calm rfl

theorem State.encodeCommand_calm {hd : CmdHdr} {st : Stamp} {req : BuildReq} (h : s.encodeCommand hd st req = .next t) :
    s.begin.Calm t := by
  rw [State.encodeCommand_eq] at h
  cases h
  exact s.answered_calm (by split <;> rfl)

theorem execEncBuild_calm {req : BuildReq} (h : execEncBuild req s = .next t) : s.begin.Calm t := by
  rw [execEncBuild_eq] at h
  cases h
  exact s.answered_calm (by split <;> rfl)

/-- What an instruction does to the run state: RESET resets, POLL may abort its token hard, and nothing else does. -/
theorem exec_calmOrHalts {i : Instr} (h : exec i s = .next t) :
    (i = .opReset ∧ t = s.doReset) ∨ s.begin.Calm t ∨ ∃ j now w, i = .poll j now ∧ s.begin.Halts j w t := by
  by_cases hc : i.opBytes = none
  · obtain ⟨hd, st, req, e⟩ := exec_command i s hc
    exact .inr (.inl (State.encodeCommand_calm (e ▸ h)))
  cases i
  case opReset => cases h; exact .inl ⟨rfl, rfl⟩
  case poll j now =>
    obtain e | ⟨e, -, rfl⟩ := s.answer_cases t _ h
    · exact .inr ((State.opPoll_calmOrHalts e).imp_right fun ⟨w, k⟩ => ⟨j, now, w, rfl, k⟩)
    · exact .inr (.inl (s.answered_calm rfl))
  case encBuild => exact .inr (.inl (execEncBuild_calm h))
  case encFinalize => cases h; exact .inr (.inl (s.answered_calm (r := .ofWord _) rfl))
  case alloc => exact .inr (.inl (State.answer_calm h fun _ => State.opAlloc_calm))
  case allocId => exact .inr (.inl (State.answer_calm h fun _ => State.opAllocId_calm))
  case build => exact .inr (.inl (State.answer_calm h fun _ => State.opBuild_calm))
  case issue => exact .inr (.inl (State.answer_calm h fun _ => State.opIssue_calm))
  case statusRefresh => exact .inr (.inl (State.answer_calm h fun _ => State.opRefresh_calm))
  case reissue => exact .inr (.inl (State.answer_calm h fun _ => State.opReissue_calm))
  case detach => exact .inr (.inl (State.answer_calm h fun _ => State.opDetach_calm))
  case release => exact .inr (.inl (State.answer_calm h fun _ => State.opRelease_calm))
  all_goals exact absurd rfl hc

end

/-- After RESET every token is a reset token (70_reset_and_hazards.md R440). -/
theorem State.doReset_tokAt (s : State) (j : Nat) : s.doReset.tokAt j = Token.reset := by
  have h : s.doReset.slots = List.replicate s.numSlots Slot.reset := rfl
  rw [State.tokAt, State.slotAt, h, List.getD_eq_getElem?_getD, List.getElem?_replicate]
  split <;> rfl

/-- Settles O18: by the three things an instruction can do to the run state. -/
theorem deadStateRules : Obligations.DeadStateRules := by
  refine ⟨fun _ _ => rfl, fun s => ⟨s.doReset, rfl, rfl⟩, fun i s t h => ?_⟩
  obtain ⟨rfl, rfl⟩ | hc | ⟨j, now, w, rfl, hh⟩ := exec_calmOrHalts h
  case inl =>
    refine ⟨fun x => absurd rfl x, fun x => absurd rfl x, fun j _ x => ?_, fun _ _ x => absurd x List.not_mem_nil, nofun⟩
    rw [State.doReset_tokAt] at x
    cases x
  case inr.inl =>
    have hr : t.run = s.run := hc.run
    refine ⟨fun _ x => hr.trans x, fun _ _ => hr, fun j x y => absurd (hc.result j y) x,
      fun j w x => absurd (hc.halted j w x) List.not_mem_nil, fun x y => ?_⟩
    cases x.symm.trans (hr.symm.trans y)
  case inr.inr =>
    refine ⟨fun _ _ => hh.run, fun _ x => absurd rfl (x j now), fun _ _ _ => hh.run, fun k v x => ?_,
      fun _ _ => ⟨j, w, hh.emitted⟩⟩
    obtain y | ⟨rfl, rfl⟩ := hh.halted k v x
    · exact absurd y List.not_mem_nil
    · exact ⟨hh.run, hh.result, hh.why⟩

end Sys2Proof.Machine
end

section
/-! Command Words bit by bit, in every layout: which bits a field holds, what a write of a field leaves, and from it every
bit of the word `finalize` answers (30_encoding.md R111-R117, 40_cmdgen.md R225-R231).  Laws/Bits.lean has the same of
the reference layout. -/

namespace Sys2Proof

/-! ### Fields -/

/-- The field holds bit `k` of word `j`. -/
abbrev Field.holds (f : Field) (j k : Nat) : Prop := f.word = j ∧ f.lo ≤ k ∧ k < f.lo + f.width

theorem inFields_iff (fs : List Field) (j k : Nat) : inFields fs j k = true ↔ ∃ f ∈ fs, f.holds j k := by
  simp [inFields, Field.holds, and_assoc]

theorem Field.present_iff (f : Field) : f.present = true ↔ f.word < 8 ∧ 1 ≤ f.width ∧ f.lo + f.width ≤ 64 := by
  simp [Field.present, and_assoc]

theorem Field.apart_comm {f g : Field} (h : f.apart g = true) : g.apart f = true := by
  simp only [Field.apart, Bool.or_eq_true, decide_eq_true_eq, bne_iff_ne] at h ⊢
  omega

/-- Two fields apart hold no bit together. -/
theorem Field.not_holds_of_apart {f g : Field} {j k : Nat} (h : f.apart g = true) (hf : f.holds j k) : ¬ g.holds j k := by
  simp only [Field.apart, Bool.or_eq_true, decide_eq_true_eq, bne_iff_ne] at h
  rintro ⟨hw, hl, hu⟩
  obtain ⟨hw', hl', hu'⟩ := hf
  omega

theorem fieldsApart_iff (fs : List Field) : fieldsApart fs = true ↔ fs.Pairwise fun f g => f.apart g = true := by
  induction fs with
  | nil => simp [fieldsApart]
  | cons f fs ih => simp [fieldsApart, ih]

/-! ### The bits of a Command Word -/

/-- Bit `k` of word `j` of a Command Word. -/
def CmdWord.bit (W : CmdWord) (j k : Nat) : Bool := (W.get j).getLsbD k

theorem CmdWord.get_set (W : CmdWord) (j i : Nat) (v : Word) (hj : j < 8) : (W.set j v).get i = if j = i then v else W.get i := by
  obtain rfl | hne := eq_or_ne j i
  · rw [if_pos rfl]
    interval_cases j <;> rfl
  · rw [if_neg hne]
    interval_cases j <;> rcases i with _ | _ | _ | _ | _ | _ | _ | _ | i <;> first | rfl | exact absurd rfl hne

/-- Two Command Words with the same bits are one. -/
theorem CmdWord.ext_bit {V W : CmdWord} (h : ∀ j k, j < 8 → k < 64 → V.bit j k = W.bit j k) : V = W := by
  have e (j : Nat) (hj : j < 8) : V.get j = W.get j := BitVec.eq_of_getLsbD_eq fun k hk => h j k hj hk
  obtain ⟨v0, v1, v2, v3, v4, v5, v6, v7⟩ := V
  obtain ⟨w0, w1, w2, w3, w4, w5, w6, w7⟩ := W
  exact CmdWord.mk.injEq .. ▸ ⟨e 0 (by decide), e 1 (by decide), e 2 (by decide), e 3 (by decide), e 4 (by decide),
    e 5 (by decide), e 6 (by decide), e 7 (by decide)⟩

/-- A bit after a field was written. -/
theorem CmdWord.bit_setField (W : CmdWord) {f : Field} (v : Word) (hf : f.present = true) (j k : Nat) :
    (W.setField f v).bit j k = if f.holds j k then v.getLsbD (k - f.lo) else W.bit j k := by
  obtain ⟨hword, -, hwidth⟩ := f.present_iff.1 hf
  rw [CmdWord.bit, CmdWord.setField, CmdWord.get_set _ _ _ _ hword]
  by_cases hj : f.word = j
  · subst hj
    rw [if_pos rfl, getLsbD_insertBits]
    by_cases hk : f.lo ≤ k ∧ k < f.lo + f.width
    · rw [if_pos hk, if_pos ⟨rfl, hk⟩, decide_eq_true (by omega), Bool.true_and]
    · rw [if_neg hk, if_neg fun h => hk h.2]
      rfl
  · rw [if_neg hj, if_neg fun h => hj h.1]
    rfl

/-- A bit of a field read. -/
theorem CmdWord.getLsbD_getField_eq_bit (W : CmdWord) (f : Field) (i : Nat) (h : i < 64) :
    (W.getField f).getLsbD i = (decide (i < f.width) && W.bit f.word (f.lo + i)) := by
  rw [getLsbD_getField, decide_eq_true h, Bool.true_and]
  rfl

theorem CmdWord.get_zero (j : Nat) : CmdWord.zero.get j = 0 := by
  match j with
  | 0 | 1 | 2 | 3 | 4 | 5 | 6 | 7 => rfl
  | _ + 8 => rfl

theorem CmdWord.getField_zero (f : Field) : CmdWord.zero.getField f = 0 := by
  simp [CmdWord.getField, CmdWord.get_zero]

/-- A field reads alike in two words that agree on its bits. -/
theorem CmdWord.getField_congr {V W : CmdWord} {f : Field} (h : ∀ j k, f.holds j k → V.bit j k = W.bit j k) :
    V.getField f = W.getField f := by
  apply BitVec.eq_of_getLsbD_eq
  intro i hi
  rw [CmdWord.getLsbD_getField_eq_bit _ _ _ hi, CmdWord.getLsbD_getField_eq_bit _ _ _ hi]
  by_cases hw : i < f.width
  · rw [h f.word (f.lo + i) ⟨rfl, by omega, by omega⟩]
  · simp [hw]

/-- A field reads alike after a write of a field apart from it. -/
theorem CmdWord.getField_setField_of_apart (W : CmdWord) {f g : Field} (v : Word) (hg : g.present = true)
    (h : f.apart g = true) : (W.setField g v).getField f = W.getField f :=
  CmdWord.getField_congr fun j k hf => by rw [CmdWord.bit_setField _ _ hg, if_neg (Field.not_holds_of_apart h hf)]

/-- A field reads as the low bits of what was written to it. -/
theorem CmdWord.getField_setField (W : CmdWord) {f : Field} (v : Word) (hf : f.present = true) :
    (W.setField f v).getField f = v &&& lowMask f.width := by
  apply BitVec.eq_of_getLsbD_eq
  intro i hi
  rw [CmdWord.getLsbD_getField_eq_bit _ _ _ hi, CmdWord.bit_setField _ _ hf, BitVec.getLsbD_and, getLsbD_lowMask,
    Nat.add_sub_cancel_left]
  by_cases hw : i < f.width
  · simp [hw, hi]
  · simp [hw]

/-! ### What a layout says of its fields -/

/-- The fields that stamping the header writes (R226-R228). -/
def Layout.stampedHeader (L : Layout) : List Field := [L.slot, L.deallocV, L.deallocId, L.seq]

/-- The fields that finalize writes after the duplication (R230, R231). -/
def Layout.stampedLast (L : Layout) : List Field := L.xsumFields ++ msbFields ++ L.polarityFields

section
variable {L : Layout}

theorem Layout.present_of_mem (h : L.eightWords = true) {f : Field} (hf : f ∈ L.allFields) : f.present = true :=
  List.all_eq_true.1 h f hf

theorem Layout.stampedLast_subset {f : Field} (hf : f ∈ L.stampedLast) : f ∈ L.allFields := by
  simp only [Layout.stampedLast, Layout.allFields, List.mem_append] at hf ⊢
  tauto

theorem Layout.stampedHeader_subset {f : Field} (hf : f ∈ L.stampedHeader) : f ∈ L.header := by
  simp only [Layout.stampedHeader, Layout.header, List.mem_cons, List.not_mem_nil] at hf ⊢
  tauto

theorem Layout.header_subset {f : Field} (hf : f ∈ L.header) : f ∈ L.allFields := by
  simp [Layout.allFields, Layout.protectedFields, hf]

/-- A polarity bit stands in bit `k` of word `j`. -/
theorem Layout.polarityFields_holds_iff (j k : Nat) : (∃ f ∈ L.polarityFields, f.holds j k) ↔ (j, k) ∈ L.polarity := by
  simp only [Layout.polarityFields, List.mem_map, exists_exists_and_eq_and, polarityField, Field.holds]
  constructor
  · rintro ⟨⟨a, b⟩, hp, rfl, hl, hu⟩
    obtain rfl : b = k := by omega
    exact hp
  · exact fun hp => ⟨(j, k), hp, rfl, by omega, by omega⟩

/-- (L2) of words 0-2 and their mirrors: a position carries a polarity bit with its mirror, and where it does not neither
carries a checksum bit. -/
theorem Layout.mirrors_position (h : L.mirrors = true) {j k : Nat} (hj : j < 3) (hk : k < 64) (h2 : j = 2 → k < 62) :
    ((j, k) ∈ L.polarity ↔ (j + 3, k) ∈ L.polarity)
      ∧ ((j, k) ∉ L.polarity → ∀ f ∈ L.xsumFields, ¬ f.holds j k ∧ ¬ f.holds (j + 3) k) := by
  simp only [Layout.mirrors, Bool.and_eq_true, List.all_eq_true, List.mem_range] at h
  obtain ⟨⟨⟨h, -⟩, -⟩, -⟩ := h
  have hm := h j hj k (by split <;> omega)
  simp only [Layout.mirrorsBit, Bool.and_eq_true, Bool.or_eq_true, beq_iff_eq, List.contains_iff_mem, Bool.not_eq_true'] at hm
  obtain ⟨hpol, hx⟩ := hm
  refine ⟨by simpa using Bool.eq_iff_iff.1 hpol, fun hn f hf => ?_⟩
  obtain ⟨h1, h2⟩ := hx.resolve_left hn
  have free {i : Nat} (h : inFields L.xsumFields i k = false) (hh : f.holds i k) : False := by
    simp [(inFields_iff _ _ _).2 ⟨f, hf, hh⟩] at h
  exact ⟨free h1, free h2⟩

/-- (L2) of the top two bits of word 5: no polarity bit stands there. -/
theorem Layout.mirrors_msb (h : L.mirrors = true) {k : Nat} (hk : k = 62 ∨ k = 63) : (5, k) ∉ L.polarity := by
  simp only [Layout.mirrors, Bool.and_eq_true, List.all_eq_true] at h
  obtain ⟨⟨⟨-, h⟩, -⟩, -⟩ := h
  intro hp
  have hf := h (polarityField (5, k)) (List.mem_map_of_mem hp) ⟨5, k, 1⟩ (by rcases hk with rfl | rfl <;> simp [msbFields])
  exact Field.not_holds_of_apart hf (j := 5) (k := k)
    ⟨rfl, by simp [polarityField], by simp [polarityField]⟩ ⟨rfl, by simp, by simp⟩

/-- The header fields that only `build` writes (30_encoding.md R112). -/
def Layout.builtHeader (L : Layout) : List Field := [L.opc, L.dir, L.hwOnly, L.dupChk, L.dsize, L.msize]

theorem Layout.builtHeader_subset {f : Field} (hf : f ∈ L.builtHeader) : f ∈ L.protectedFields := by
  simp only [Layout.builtHeader, Layout.protectedFields, Layout.header, List.mem_append, List.mem_cons, List.not_mem_nil] at hf ⊢
  tauto

/-- Where the header fields overlap nowhere, those of `build` are apart from those finalize stamps. -/
theorem Layout.builtHeader_apart_stampedHeader (h : L.header.Pairwise fun f g => f.apart g = true) {f g : Field}
    (hf : f ∈ L.builtHeader) (hg : g ∈ L.stampedHeader) : f.apart g = true := by
  simp only [Layout.header, List.pairwise_cons, List.forall_mem_cons] at h
  simp only [Layout.builtHeader, Layout.stampedHeader, List.mem_cons, List.not_mem_nil, or_false] at hf hg
  rcases hf with rfl | rfl | rfl | rfl | rfl | rfl <;> rcases hg with rfl | rfl | rfl | rfl <;>
    first
    | simp only [h]
    | exact Field.apart_comm (by simp only [h])

theorem Layout.header_pairwise_of_headerApart (h : L.headerApart = true) : L.header.Pairwise fun f g => f.apart g = true :=
  (List.pairwise_append.1 ((fieldsApart_iff _).1 h)).1

theorem Layout.allFields_pairwise (h : L.unambiguous = true) : L.allFields.Pairwise fun f g => f.apart g = true := by
  simp only [Layout.unambiguous, Bool.and_eq_true] at h
  obtain ⟨⟨⟨h, -⟩, -⟩, -⟩ := h
  exact (fieldsApart_iff _).1 h

/-- In an unambiguous layout the duplication overwrites no protected field (R111). -/
theorem Layout.protected_outside (h : L.unambiguous = true) {f : Field} (hf : f ∈ L.protectedFields) : f.word < 3 ∨ 6 ≤ f.word := by
  simp only [Layout.unambiguous, Bool.and_eq_true, List.all_eq_true, Bool.or_eq_true, decide_eq_true_eq] at h
  obtain ⟨⟨⟨-, h⟩, -⟩, -⟩ := h
  exact h f hf

theorem Layout.protected_apart_stampedLast (h : L.unambiguous = true) {f g : Field} (hf : f ∈ L.protectedFields)
    (hg : g ∈ L.stampedLast) : f.apart g = true := by
  have hp := L.allFields_pairwise h
  simp only [Layout.allFields, List.append_assoc, List.pairwise_append (l₁ := L.protectedFields)] at hp
  refine hp.2.2 f hf g ?_
  simp only [Layout.stampedLast, List.mem_append] at hg ⊢
  tauto

theorem Layout.builtHeader_apart_stamped (h : L.unambiguous = true) {f g : Field} (hf : f ∈ L.builtHeader)
    (hg : g ∈ L.stampedHeader ++ L.stampedLast) : f.apart g = true := by
  have hp := L.allFields_pairwise h
  simp only [Layout.allFields, Layout.protectedFields, List.append_assoc] at hp
  obtain hg | hg := List.mem_append.1 hg
  · exact Layout.builtHeader_apart_stampedHeader (List.pairwise_append.1 hp).1 hf hg
  · exact Layout.protected_apart_stampedLast h (Layout.builtHeader_subset hf) hg

theorem Layout.mem_allFields_of_stamped {g : Field} (hg : g ∈ L.stampedHeader ++ L.stampedLast) : g ∈ L.allFields :=
  (List.mem_append.1 hg).elim (fun h => Layout.header_subset (Layout.stampedHeader_subset h)) Layout.stampedLast_subset

/-- The checksum fields overlap neither each other, nor a polarity bit, nor an MSB. -/
theorem Layout.xsum_apart (h : L.unambiguous = true) :
    L.xsumLo.apart L.xsumHi = true ∧ ∀ f ∈ L.xsumFields, ∀ g ∈ L.polarityFields ++ msbFields, f.apart g = true := by
  have hp : ((L.protectedFields ++ L.auxFields) ++ (L.xsumFields ++ (L.polarityFields ++ msbFields))).Pairwise
      fun f g => f.apart g = true := by
    simpa only [Layout.allFields, List.append_assoc] using L.allFields_pairwise h
  obtain ⟨hxx, -, hx⟩ := List.pairwise_append.1 (List.pairwise_append.1 hp).2.1
  exact ⟨(List.pairwise_cons.1 hxx).1 _ List.mem_cons_self, hx⟩

/-- The fields `build` can write (40_cmdgen.md R172, R204; 30_encoding.md R113). -/
def Layout.builtFields (L : Layout) : List Field :=
  [L.opc, L.dir, L.hwOnly, L.dupChk, L.dsize, L.msize, L.src, L.dst, L.aux0, L.aux1, L.aux2]

theorem Layout.builtFields_sublist : L.builtFields.Sublist L.allFields :=
  .cons_cons _ <| .cons _ <| .cons _ <| .cons_cons _ <| .cons_cons _ <| .cons_cons _ <| .cons_cons _ <| .cons_cons _ <| .cons _ <|
    .cons _ <| .cons_cons _ <| .cons_cons _ <| .cons_cons _ <| .cons_cons _ <| .cons_cons _ <| List.nil_sublist _

end

end Sys2Proof
end

section
/-! Every bit of the word `finalize` answers, in every admissible layout, and from it the laws of finalize
(30_encoding.md R111-R117, 40_cmdgen.md R225-R232). -/

namespace Sys2Proof.Machine

open Sys2Proof

/-! ### The steps of finalize -/

/-- The word with slot, deallocation and sequence number stamped (40_cmdgen.md R226-R228). -/
def stampHeader (L : Layout) (W : CmdWord) (slot : Byte) (seq : BitVec 32) (dealloc : Option (BitVec 5)) : CmdWord :=
  let W := W.setField L.slot (slot.setWidth 64)
  let W := W.setField L.deallocV ((BitVec.ofBool dealloc.isSome).setWidth 64)
  let W := W.setField L.deallocId ((dealloc.getD 0).setWidth 64)
  W.setField L.seq (seq.setWidth 64)

/-- The word with words 3-5 the copies of words 0-2 where `DUPCHK` is 1 (R229). -/
def mirrorWords (L : Layout) (W : CmdWord) : CmdWord :=
  if W.getField L.dupChk = 1 then { W with w3 := W.w0, w4 := W.w1, w5 := W.w2 } else W

/-- The word with the checksum in its fields and its MSBs in word 5 (R230). -/
def stampChecksum (L : Layout) (W : CmdWord) (x : BitVec 128) : CmdWord :=
  let W := (W.setField L.xsumLo (x.extractLsb' 0 64)).setField L.xsumHi (x.extractLsb' 64 64)
  setMsb (setMsb W 62 x L.msb0) 63 x L.msb1

/-- The word with the polarity bit at each of the positions (R231). -/
def stampPolarity (W : CmdWord) (odd : BitVec 1) (ps : List (Nat × Nat)) : CmdWord :=
  ps.foldl (fun W p => W.setField (polarityField p) (odd.setWidth 64)) W

theorem finalize_eq (L : Layout) (W : CmdWord) (odd : BitVec 1) (slot : Byte) (seq : BitVec 32) (dealloc : Option (BitVec 5))
    (x : BitVec 128) :
    finalize L W odd slot seq dealloc x
      = stampPolarity (stampChecksum L (mirrorWords L (stampHeader L W slot seq dealloc)) x) odd L.polarity := by
  cases dealloc <;> rfl

/-- What each write of a stamped field and the duplication keep, finalize keeps. -/
theorem finalize_keeps {L : Layout} {Q : CmdWord → Prop}
    (field : ∀ V f v, f ∈ L.stampedHeader ++ L.stampedLast → Q V → Q (V.setField f v)) (mirror : ∀ V, Q V → Q (mirrorWords L V))
    {W : CmdWord} (h : Q W) (odd : BitVec 1) (slot : Byte) (seq : BitVec 32) (dealloc : Option (BitVec 5)) (x : BitVec 128) :
    Q (finalize L W odd slot seq dealloc x) := by
  have polarity (ps : List (Nat × Nat)) (hps : ∀ p ∈ ps, p ∈ L.polarity) (V : CmdWord) (hV : Q V) :
      Q (stampPolarity V odd ps) := by
    induction ps generalizing V with
    | nil => exact hV
    | cons p ps ih =>
      have hp : polarityField p ∈ L.polarityFields := List.mem_map_of_mem (hps p List.mem_cons_self)
      exact ih (fun q hq => hps q (List.mem_cons_of_mem p hq)) _ (field _ _ _ (by simp [Layout.stampedLast, hp]) hV)
  rw [finalize_eq]
  refine polarity _ (fun _ hp => hp) _ ?_
  have header : Q (stampHeader L W slot seq dealloc) := by
    iterate 4 refine field _ _ _ (by simp [Layout.stampedHeader]) ?_
    exact h
  rw [stampChecksum, setMsb, setMsb]
  iterate 4 refine field _ _ _ (by simp [Layout.stampedLast, Layout.xsumFields, msbFields]) ?_
  exact mirror _ header

section
variable {L : Layout}

/-! ### The bits of finalize, step by step -/

theorem setMsb_bit (W : CmdWord) (x : BitVec 128) {at' hi j k : Nat} (h : at' < 64) :
    (setMsb W at' x hi).bit j k = if j = 5 ∧ k = at' then x.getLsbD hi else W.bit j k := by
  rw [setMsb, CmdWord.bit_setField _ _ ((Field.present_iff _).2 ⟨by simp, by simp, by simpa using h⟩)]
  by_cases hj : j = 5 ∧ k = at'
  · obtain ⟨rfl, rfl⟩ := hj
    simp
  · rw [if_neg hj, if_neg (by simp only [Field.holds]; omega)]

theorem stampHeader_bit_of_not_holds (hw : L.eightWords = true) (W : CmdWord) (slot : Byte) (seq : BitVec 32)
    (dealloc : Option (BitVec 5)) {j k : Nat} (h : ∀ f ∈ L.stampedHeader, ¬ f.holds j k) :
    (stampHeader L W slot seq dealloc).bit j k = W.bit j k := by
  have present (f : Field) (hf : f ∈ L.stampedHeader) : f.present = true :=
    Layout.present_of_mem hw (Layout.header_subset (Layout.stampedHeader_subset hf))
  simp only [Layout.stampedHeader, List.forall_mem_cons] at h present
  obtain ⟨hslot, hv, hid, hseq, -⟩ := h
  obtain ⟨pslot, pv, pid, pseq, -⟩ := present
  rw [stampHeader, CmdWord.bit_setField _ _ pseq, if_neg hseq, CmdWord.bit_setField _ _ pid, if_neg hid,
    CmdWord.bit_setField _ _ pv, if_neg hv, CmdWord.bit_setField _ _ pslot, if_neg hslot]

/-- What the stamped header reads depends on the word alone where no stamped field stands. -/
theorem stampHeader_bit_congr (hw : L.eightWords = true) {V W : CmdWord} (slot : Byte) (seq : BitVec 32)
    (dealloc : Option (BitVec 5)) {j k : Nat} (h : (∀ f ∈ L.stampedHeader, ¬ f.holds j k) → V.bit j k = W.bit j k) :
    (stampHeader L V slot seq dealloc).bit j k = (stampHeader L W slot seq dealloc).bit j k := by
  have present (f : Field) (hf : f ∈ L.stampedHeader) : f.present = true :=
    Layout.present_of_mem hw (Layout.header_subset (Layout.stampedHeader_subset hf))
  simp only [Layout.stampedHeader, List.forall_mem_cons] at h present
  obtain ⟨pslot, pv, pid, pseq, -⟩ := present
  simp only [stampHeader, CmdWord.bit_setField _ _ pseq, CmdWord.bit_setField _ _ pid, CmdWord.bit_setField _ _ pv,
    CmdWord.bit_setField _ _ pslot]
  split_ifs with hseq hid hv hslot
  iterate 4 rfl
  exact h ⟨hslot, hv, hid, hseq, by simp⟩

theorem mirrorWords_of_ne {W : CmdWord} (h : W.getField L.dupChk ≠ 1) : mirrorWords L W = W := if_neg h

theorem mirrorWords_bit_copy {W : CmdWord} (h : W.getField L.dupChk = 1) {j k : Nat} (hj : j < 3) :
    (mirrorWords L W).bit (j + 3) k = W.bit j k := by
  rw [mirrorWords, if_pos h]
  interval_cases j <;> rfl

theorem mirrorWords_get_of_outside (W : CmdWord) {j : Nat} (h : j < 3 ∨ 6 ≤ j) : (mirrorWords L W).get j = W.get j := by
  rw [mirrorWords]
  split
  · match j with
    | 0 | 1 | 2 | 6 | 7 => rfl
    | 3 | 4 | 5 => omega
    | _ + 8 => rfl
  · rfl

theorem mirrorWords_bit_of_outside (W : CmdWord) {j k : Nat} (h : j < 3 ∨ 6 ≤ j) : (mirrorWords L W).bit j k = W.bit j k :=
  congrArg (·.getLsbD k) (mirrorWords_get_of_outside W h)

theorem stampChecksum_bit (hw : L.eightWords = true) (W : CmdWord) (x : BitVec 128) (j k : Nat) :
    (stampChecksum L W x).bit j k =
      if j = 5 ∧ k = 63 then x.getLsbD L.msb1 else if j = 5 ∧ k = 62 then x.getLsbD L.msb0
      else if L.xsumHi.holds j k then x.getLsbD (64 + (k - L.xsumHi.lo))
      else if L.xsumLo.holds j k then x.getLsbD (k - L.xsumLo.lo) else W.bit j k := by
  have plo := Layout.present_of_mem hw (f := L.xsumLo) (by simp [Layout.allFields, Layout.xsumFields])
  have phi := Layout.present_of_mem hw (f := L.xsumHi) (by simp [Layout.allFields, Layout.xsumFields])
  have wlo := (Field.present_iff _).1 plo
  have whi := (Field.present_iff _).1 phi
  rw [stampChecksum, setMsb_bit _ _ (by omega), setMsb_bit _ _ (by omega), CmdWord.bit_setField _ _ phi,
    CmdWord.bit_setField _ _ plo]
  simp only [BitVec.getLsbD_extractLsb', Nat.zero_add]
  split_ifs with h1 h2 h3 h4
  · rfl
  · rfl
  · simp [show k - L.xsumHi.lo < 64 by omega]
  · simp [show k - L.xsumLo.lo < 64 by omega]
  · rfl

/-- A bit that is neither an MSB nor in a checksum field is left as it is. -/
theorem stampChecksum_bit_of_plain (hw : L.eightWords = true) (W : CmdWord) (x : BitVec 128) {j k : Nat}
    (hm : j = 5 → k < 62) (hx : ∀ f ∈ L.xsumFields, ¬ f.holds j k) : (stampChecksum L W x).bit j k = W.bit j k := by
  simp only [Layout.xsumFields, List.forall_mem_cons] at hx
  obtain ⟨hlo, hhi, -⟩ := hx
  rw [stampChecksum_bit hw, if_neg (by omega), if_neg (by omega), if_neg hhi, if_neg hlo]

theorem stampPolarity_bit (odd : BitVec 1) (ps : List (Nat × Nat)) (hps : ∀ p ∈ ps, (polarityField p).present = true)
    (W : CmdWord) (j k : Nat) :
    (stampPolarity W odd ps).bit j k = if (j, k) ∈ ps then odd.getLsbD 0 else W.bit j k := by
  induction ps generalizing W with
  | nil => rfl
  | cons p ps ih =>
    have e : (stampPolarity W odd (p :: ps)) = stampPolarity (W.setField (polarityField p) (odd.setWidth 64)) odd ps := rfl
    rw [e, ih (fun q hq => hps q (List.mem_cons_of_mem p hq)), CmdWord.bit_setField _ _ (hps p List.mem_cons_self)]
    by_cases hmem : (j, k) ∈ ps
    · simp [hmem]
    · rw [if_neg hmem]
      by_cases hp : (j, k) = p
      · subst hp
        simp [polarityField]
      · rw [if_neg, if_neg (by simp [hp, hmem])]
        rintro ⟨hj, hl, hu⟩
        exact hp (Prod.ext hj.symm (by simp only [polarityField] at hl hu ⊢; omega))

/-! ### The bits of finalize -/

variable (W : CmdWord) (odd : BitVec 1) (slot : Byte) (seq : BitVec 32) (dealloc : Option (BitVec 5)) (x : BitVec 128)

/-- A bit of the finalized word: the polarity where it stands, and below it the checksum. -/
theorem finalize_bit (hw : L.eightWords = true) (j k : Nat) :
    (finalize L W odd slot seq dealloc x).bit j k =
      if (j, k) ∈ L.polarity then odd.getLsbD 0
      else (stampChecksum L (mirrorWords L (stampHeader L W slot seq dealloc)) x).bit j k := by
  rw [finalize_eq, stampPolarity_bit]
  exact fun p hp => Layout.present_of_mem hw (by simp [Layout.allFields, Layout.polarityFields, List.mem_map_of_mem hp])

/-- A bit of the finalized word that is neither polarity nor checksum: the stamped header, duplicated. -/
theorem finalize_bit_of_plain (hw : L.eightWords = true) {j k : Nat} (hp : (j, k) ∉ L.polarity) (hm : j = 5 → k < 62)
    (hx : ∀ f ∈ L.xsumFields, ¬ f.holds j k) :
    (finalize L W odd slot seq dealloc x).bit j k = (mirrorWords L (stampHeader L W slot seq dealloc)).bit j k := by
  rw [finalize_bit _ _ _ _ _ _ hw, if_neg hp, stampChecksum_bit_of_plain hw _ _ hm hx]

end

end Sys2Proof.Machine
end

section
/-! The laws of finalize (40_cmdgen.md R232): duplication, polarity, checksum round trip, last writer wins. -/

namespace Sys2Proof.Machine

open Sys2Proof

section
variable {L : Layout}

/-! ### Fields that finalize leaves alone -/

theorem getField_mirrorWords (W : CmdWord) {f : Field} (h : f.word < 3 ∨ 6 ≤ f.word) :
    (mirrorWords L W).getField f = W.getField f := by
  rw [CmdWord.getField, mirrorWords_get_of_outside W h, CmdWord.getField]

variable (W : CmdWord) (odd : BitVec 1) (slot : Byte) (seq : BitVec 32) (dealloc : Option (BitVec 5)) (x : BitVec 128)

theorem getField_stampHeader (hw : L.eightWords = true) {f : Field} (hf : ∀ g ∈ L.stampedHeader, f.apart g = true) :
    (stampHeader L W slot seq dealloc).getField f = W.getField f :=
  CmdWord.getField_congr fun _ _ hh =>
    stampHeader_bit_of_not_holds hw _ _ _ _ fun g hg => Field.not_holds_of_apart (hf g hg) hh

/-- In an unambiguous layout finalize leaves the header fields of `build` as they are. -/
theorem getField_finalize (hw : L.eightWords = true) (hu : L.unambiguous = true) {f : Field} (hf : f ∈ L.builtHeader) :
    (finalize L W odd slot seq dealloc x).getField f = W.getField f := by
  refine finalize_keeps (Q := fun V => V.getField f = W.getField f) (fun V g v hg hV => ?_) (fun V hV => ?_) rfl odd slot seq
    dealloc x
  · have hp := Layout.present_of_mem hw (Layout.mem_allFields_of_stamped hg)
    rw [CmdWord.getField_setField_of_apart V v hp (Layout.builtHeader_apart_stamped hu hf hg), hV]
  · rw [getField_mirrorWords V (L.protected_outside hu (Layout.builtHeader_subset hf)), hV]

/-! ### (a) duplication and (b) polarity -/

theorem getField_dupChk_stampHeader (hw : L.eightWords = true) (hh : L.headerApart = true) :
    (stampHeader L W slot seq dealloc).getField L.dupChk = W.getField L.dupChk :=
  getField_stampHeader W slot seq dealloc hw fun _ hg =>
    Layout.builtHeader_apart_stampedHeader (L.header_pairwise_of_headerApart hh) (by simp [Layout.builtHeader]) hg

/-- The duplicated words mirror the protected ones but for the top two bits of word 5 (R232 (a)). -/
theorem finalize_bit_mirror (hw : L.eightWords = true) (hm : L.mirrors = true) (hh : L.headerApart = true)
    (hd : W.getField L.dupChk = 1) {j k : Nat} (hj : j < 3) (hk : k < 64) (h2 : j = 2 → k < 62) :
    (finalize L W odd slot seq dealloc x).bit (j + 3) k = (finalize L W odd slot seq dealloc x).bit j k := by
  obtain ⟨hpol, hx⟩ := L.mirrors_position hm hj hk h2
  have hd' := (getField_dupChk_stampHeader W slot seq dealloc hw hh).trans hd
  by_cases hp : (j, k) ∈ L.polarity
  · rw [finalize_bit _ _ _ _ _ _ hw, finalize_bit _ _ _ _ _ _ hw, if_pos hp, if_pos (hpol.1 hp)]
  · rw [finalize_bit_of_plain _ _ _ _ _ _ hw hp (by omega) fun f hf => (hx hp f hf).1,
      finalize_bit_of_plain _ _ _ _ _ _ hw (hpol.not.1 hp) (by omega) fun f hf => (hx hp f hf).2,
      mirrorWords_bit_copy hd' hj, mirrorWords_bit_of_outside _ (.inl hj)]

/-- The top two bits of word 5 are the checksum MSBs the layout names (R230). -/
theorem finalize_bit_msb (hw : L.eightWords = true) (hm : L.mirrors = true) :
    (finalize L W odd slot seq dealloc x).bit 5 62 = x.getLsbD L.msb0
      ∧ (finalize L W odd slot seq dealloc x).bit 5 63 = x.getLsbD L.msb1 := by
  constructor
  · rw [finalize_bit _ _ _ _ _ _ hw, if_neg (L.mirrors_msb hm (.inl rfl)), stampChecksum_bit hw, if_neg (by simp),
      if_pos ⟨rfl, rfl⟩]
  · rw [finalize_bit _ _ _ _ _ _ hw, if_neg (L.mirrors_msb hm (.inr rfl)), stampChecksum_bit hw, if_pos ⟨rfl, rfl⟩]

theorem finalize_duplication (hw : L.eightWords = true) (hm : L.mirrors = true) (hh : L.headerApart = true)
    (hd : W.getField L.dupChk = 1) :
    let V := finalize L W odd slot seq dealloc x
    V.w3 = V.w0 ∧ V.w4 = V.w1 ∧ V.w5.extractLsb' 0 62 = V.w2.extractLsb' 0 62
      ∧ V.w5.extractLsb' 62 2 = x.extractLsb' L.msb1 1 ++ x.extractLsb' L.msb0 1 := by
  intro V
  have mirror {j k : Nat} (hj : j < 3) (hk : k < 64) (h2 : j = 2 → k < 62) : V.bit (j + 3) k = V.bit j k :=
    finalize_bit_mirror W odd slot seq dealloc x hw hm hh hd hj hk h2
  obtain ⟨m0, m1⟩ : V.bit 5 62 = _ ∧ V.bit 5 63 = _ := finalize_bit_msb W odd slot seq dealloc x hw hm
  refine ⟨?_, ?_, ?_, ?_⟩ <;> apply BitVec.eq_of_getLsbD_eq <;> intro k hk
  · exact mirror (j := 0) (by decide) hk nofun
  · exact mirror (j := 1) (by decide) hk nofun
  · rw [BitVec.getLsbD_extractLsb', BitVec.getLsbD_extractLsb', Nat.zero_add]
    exact congrArg _ (mirror (j := 2) (by decide) (by omega) fun _ => hk)
  · rw [BitVec.getLsbD_extractLsb', BitVec.getLsbD_append, BitVec.getLsbD_extractLsb', BitVec.getLsbD_extractLsb']
    interval_cases k
    · simpa [CmdWord.bit, CmdWord.get] using m0
    · simpa [CmdWord.bit, CmdWord.get] using m1

/-- Each polarity position of the finalized word carries the polarity (R232 (b)). -/
theorem finalize_polarity (hw : L.eightWords = true) {p : Nat × Nat} (hp : p ∈ L.polarity) :
    ((finalize L W odd slot seq dealloc x).get p.1).extractLsb' p.2 1 = odd := by
  apply BitVec.eq_of_getLsbD_eq
  intro k hk
  obtain rfl : k = 0 := by omega
  rw [BitVec.getLsbD_extractLsb', Nat.add_zero]
  exact (finalize_bit W odd slot seq dealloc x hw p.1 p.2).trans (if_pos hp)

/-! ### (c) the checksum round trip -/

/-- In an unambiguous layout nothing finalize writes after a checksum field overwrites it. -/
theorem finalize_bit_xsum (hw : L.eightWords = true) (hu : L.unambiguous = true) {f : Field} (hf : f ∈ L.xsumFields) {j k : Nat}
    (hh : f.holds j k) :
    (finalize L W odd slot seq dealloc x).bit j k
      = if L.xsumHi.holds j k then x.getLsbD (64 + (k - L.xsumHi.lo)) else x.getLsbD (k - L.xsumLo.lo) := by
  obtain ⟨-, hx⟩ := L.xsum_apart hu
  have hp : (j, k) ∉ L.polarity := fun hp => by
    obtain ⟨g, hg, hh'⟩ := (Layout.polarityFields_holds_iff j k).2 hp
    exact Field.not_holds_of_apart (hx f hf g (List.mem_append_left _ hg)) hh hh'
  have hm (b : Nat) (hb : b = 62 ∨ b = 63) : ¬ (j = 5 ∧ k = b) := by
    rintro ⟨rfl, rfl⟩
    refine Field.not_holds_of_apart (hx f hf ⟨5, k, 1⟩ (List.mem_append_right _ ?_)) hh ⟨rfl, by simp, by simp⟩
    rcases hb with rfl | rfl <;> simp [msbFields]
  rw [finalize_bit _ _ _ _ _ _ hw, if_neg hp, stampChecksum_bit hw, if_neg (hm 63 (.inr rfl)), if_neg (hm 62 (.inl rfl))]
  split_ifs with h1 h2
  · rfl
  · rfl
  · simp only [Layout.xsumFields, List.mem_cons, List.not_mem_nil, or_false] at hf
    rcases hf with rfl | rfl
    · exact absurd hh h2
    · exact absurd hh h1

/-- The checksum fields of a finalized word hold the low bits of the halves of the checksum. -/
theorem finalize_getField_xsum (hw : L.eightWords = true) (hu : L.unambiguous = true) {i : Nat} (hi : i < 64) :
    ((finalize L W odd slot seq dealloc x).getField L.xsumLo).getLsbD i = (decide (i < L.xsumLo.width) && x.getLsbD i)
      ∧ ((finalize L W odd slot seq dealloc x).getField L.xsumHi).getLsbD i
        = (decide (i < L.xsumHi.width) && x.getLsbD (64 + i)) := by
  obtain ⟨hx, -⟩ := L.xsum_apart hu
  rw [CmdWord.getLsbD_getField_eq_bit _ _ _ hi, CmdWord.getLsbD_getField_eq_bit _ _ _ hi]
  constructor
  · by_cases h : i < L.xsumLo.width
    · have hh : L.xsumLo.holds L.xsumLo.word (L.xsumLo.lo + i) := ⟨rfl, by omega, by omega⟩
      rw [finalize_bit_xsum _ _ _ _ _ _ hw hu (by simp [Layout.xsumFields]) hh, if_neg (Field.not_holds_of_apart hx hh),
        Nat.add_sub_cancel_left]
    · simp [h]
  · by_cases h : i < L.xsumHi.width
    · have hh : L.xsumHi.holds L.xsumHi.word (L.xsumHi.lo + i) := ⟨rfl, by omega, by omega⟩
      rw [finalize_bit_xsum _ _ _ _ _ _ hw hu (by simp [Layout.xsumFields]) hh, if_pos hh, Nat.add_sub_cancel_left]
    · simp [h]

/-- A one-bit value shifted to its place. -/
theorem getLsbD_setWidth_shiftLeft (v : BitVec 1) (n i : Nat) (hi : i < 128) :
    (v.setWidth 128 <<< n).getLsbD i = (decide (i = n) && v.getLsbD 0) := by
  rw [BitVec.getLsbD_shiftLeft, BitVec.getLsbD_setWidth]
  obtain h | rfl | h := lt_trichotomy i n
  · simp [h, h.ne]
  · simp [hi]
  · rw [BitVec.getLsbD_of_ge v (i - n) (by omega)]
    simp [h.ne']

theorem finalize_checksumIn (hw : L.eightWords = true) (hm : L.mirrors = true) (hu : L.unambiguous = true)
    (hc : L.holdsChecksum = true) : L.checksumIn (finalize L W odd slot seq dealloc x) = x := by
  generalize hV : finalize L W odd slot seq dealloc x = V
  obtain ⟨m0, m1⟩ := hV ▸ finalize_bit_msb W odd slot seq dealloc x hw hm
  have fields {i : Nat} (hi : i < 64) := hV ▸ finalize_getField_xsum W odd slot seq dealloc x hw hu hi
  simp only [Layout.holdsChecksum, Bool.and_eq_true, List.all_eq_true, List.mem_range, Bool.or_eq_true, decide_eq_true_eq,
    beq_iff_eq] at hc
  obtain ⟨hlo, hhi⟩ := hc
  apply BitVec.eq_of_getLsbD_eq
  intro i hi
  have e62 : (V.w5.extractLsb' 62 1).getLsbD 0 = x.getLsbD L.msb0 := by rw [← m0, BitVec.getLsbD_extractLsb']; rfl
  have e63 : (V.w5.extractLsb' 63 1).getLsbD 0 = x.getLsbD L.msb1 := by rw [← m1, BitVec.getLsbD_extractLsb']; rfl
  rw [Layout.checksumIn, BitVec.getLsbD_or, BitVec.getLsbD_or, BitVec.getLsbD_append, getLsbD_setWidth_shiftLeft _ _ _ hi,
    getLsbD_setWidth_shiftLeft _ _ _ hi, e62, e63]
  have msb (b : Nat) : (decide (i = b) && x.getLsbD b) = (decide (i = b) && x.getLsbD i) := by
    by_cases h : i = b <;> simp [h]
  rw [msb, msb]
  by_cases h : i < 64
  · rw [if_pos h, (fields h).1, ← Bool.and_or_distrib_right, ← Bool.and_or_distrib_right]
    simp [hlo i h]
  · have hi' : i - 64 < 64 := by omega
    have e : 64 + (i - 64) = i := by omega
    have hc := hhi (i - 64) hi'
    rw [if_neg h, (fields hi').2, e, ← Bool.and_or_distrib_right, ← Bool.and_or_distrib_right]
    rw [Nat.add_comm, e] at hc
    simp [hc]

/-- The two checksum fields, wide enough, hold the checksum. -/
theorem finalize_xsum_append (hw : L.eightWords = true) (hu : L.unambiguous = true) (hlo : 64 ≤ L.xsumLo.width)
    (hhi : 64 ≤ L.xsumHi.width) :
    let V := finalize L W odd slot seq dealloc x
    V.getField L.xsumHi ++ V.getField L.xsumLo = x := by
  apply BitVec.eq_of_getLsbD_eq
  intro i hi
  rw [BitVec.getLsbD_append]
  by_cases h : i < 64
  · rw [if_pos h, (finalize_getField_xsum W odd slot seq dealloc x hw hu h).1, decide_eq_true (by omega), Bool.true_and]
  · rw [if_neg h, (finalize_getField_xsum W odd slot seq dealloc x hw hu (by omega)).2, decide_eq_true (by omega), Bool.true_and,
      Nat.add_sub_cancel' (Nat.le_of_not_lt h)]

/-! ### (d) last writer wins -/

/-- Stamping the header again, of a finalized word, leaves every bit that is neither polarity nor checksum as stamping the
header of the first word does. -/
theorem stampHeader_finalize_bit (hw : L.eightWords = true) (slot' : Byte) (seq' : BitVec 32) (dealloc' : Option (BitVec 5))
    {j k : Nat} (hp : (j, k) ∉ L.polarity) (hm : j = 5 → k < 62) (hx : ∀ f ∈ L.xsumFields, ¬ f.holds j k)
    (hd : (mirrorWords L (stampHeader L W slot seq dealloc)).bit j k = (stampHeader L W slot seq dealloc).bit j k) :
    (stampHeader L (finalize L W odd slot seq dealloc x) slot' seq' dealloc').bit j k
      = (stampHeader L W slot' seq' dealloc').bit j k :=
  stampHeader_bit_congr hw slot' seq' dealloc' fun hn =>
    (finalize_bit_of_plain W odd slot seq dealloc x hw hp hm hx).trans
      (hd.trans (stampHeader_bit_of_not_holds hw W slot seq dealloc hn))

theorem finalize_finalize (hw : L.eightWords = true) (hm : L.mirrors = true) (hh : L.headerApart = true)
    (hu : L.unambiguous = true) (odd' : BitVec 1) (slot' : Byte) (seq' : BitVec 32) (dealloc' : Option (BitVec 5))
    (x' : BitVec 128) :
    finalize L (finalize L W odd slot seq dealloc x) odd' slot' seq' dealloc' x' = finalize L W odd' slot' seq' dealloc' x' := by
  have hk : (finalize L W odd slot seq dealloc x).getField L.dupChk = W.getField L.dupChk :=
    getField_finalize W odd slot seq dealloc x hw hu (by simp [Layout.builtHeader])
  have stamped (sl : Byte) (sq : BitVec 32) (d : Option (BitVec 5)) (U : CmdWord) :=
    getField_dupChk_stampHeader U sl sq d hw hh
  apply CmdWord.ext_bit
  intro j k hj hk64
  rw [finalize_bit _ _ _ _ _ _ hw, finalize_bit _ _ _ _ _ _ hw, stampChecksum_bit hw, stampChecksum_bit hw]
  split_ifs with hp h63 h62 hhi hlo
  iterate 5 rfl
  have hx : ∀ f ∈ L.xsumFields, ¬ f.holds j k := List.forall_mem_cons.2 ⟨hlo, List.forall_mem_singleton.2 hhi⟩
  have hm5 : j = 5 → k < 62 := by omega
  by_cases hd : W.getField L.dupChk = 1
  · by_cases hout : j < 3 ∨ 6 ≤ j
    · rw [mirrorWords_bit_of_outside _ hout, mirrorWords_bit_of_outside _ hout]
      exact stampHeader_finalize_bit W odd slot seq dealloc x hw slot' seq' dealloc' hp hm5 hx (mirrorWords_bit_of_outside _ hout)
    · obtain ⟨i, rfl⟩ : ∃ i, j = i + 3 := ⟨j - 3, by omega⟩
      have hi : i < 3 := by omega
      obtain ⟨hpol, hxi⟩ := L.mirrors_position hm hi hk64 (by omega)
      have hpi := hpol.not.2 hp
      rw [mirrorWords_bit_copy ((stamped ..).trans (hk.trans hd)) hi, mirrorWords_bit_copy ((stamped ..).trans hd) hi]
      exact stampHeader_finalize_bit W odd slot seq dealloc x hw slot' seq' dealloc' hpi (by omega)
        (fun f hf => (hxi hpi f hf).1) (mirrorWords_bit_of_outside _ (.inl hi))
  · have same (sl : Byte) (sq : BitVec 32) (d : Option (BitVec 5)) (U : CmdWord)
        (hU : U.getField L.dupChk = W.getField L.dupChk) :
        mirrorWords L (stampHeader L U sl sq d) = stampHeader L U sl sq d :=
      mirrorWords_of_ne (by rwa [stamped, hU])
    rw [same _ _ _ _ hk, same _ _ _ _ rfl]
    exact stampHeader_finalize_bit W odd slot seq dealloc x hw slot' seq' dealloc' hp hm5 hx
      (congrArg (·.bit j k) (same _ _ _ _ rfl))

end

/-- Settles O28: from the bits of the finalized word. -/
theorem finalizeLaws : Obligations.FinalizeLaws := by
  refine ⟨fun L W odd slot seq dealloc x ha => ?_, by decide +kernel⟩
  simp only [Layout.admissible, Bool.and_eq_true] at ha
  obtain ⟨⟨⟨⟨⟨hw, hm⟩, hsix⟩, -⟩, -⟩, hh⟩ := ha
  simp only [Layout.sixPolarities, Bool.and_eq_true, beq_iff_eq] at hsix
  exact ⟨finalize_duplication W odd slot seq dealloc x hw hm hh,
    ⟨hsix.1, fun p => finalize_polarity W odd slot seq dealloc x hw⟩,
    fun hu => ⟨finalize_checksumIn W odd slot seq dealloc x hw hm hu, finalize_xsum_append W odd slot seq dealloc x hw hu,
      finalize_finalize W odd slot seq dealloc x hw hm hh hu⟩⟩

end Sys2Proof.Machine
end

section
/-! The encoder gives clean words: what `build` answers is clean, and finalize keeps a word clean (30_encoding.md R118, R119,
R121, R132). -/

namespace Sys2Proof.Machine

open Sys2Proof

/-! ### Fields written one after the other -/

/-- A Command Word with fields written, the first first. -/
def writeFields (W : CmdWord) (l : List (Field × Word)) : CmdWord := l.foldl (fun W p => W.setField p.1 p.2) W

theorem writeFields_cons (W : CmdWord) (p : Field × Word) (l : List (Field × Word)) :
    writeFields W (p :: l) = writeFields (W.setField p.1 p.2) l := rfl

theorem getField_writeFields_of_apart {f : Field} {l : List (Field × Word)} (hl : ∀ p ∈ l, p.1.present = true)
    (h : ∀ p ∈ l, f.apart p.1 = true) (W : CmdWord) : (writeFields W l).getField f = W.getField f := by
  induction l generalizing W with
  | nil => rfl
  | cons p l ih =>
    rw [List.forall_mem_cons] at hl h
    rw [writeFields_cons, ih hl.2 h.2, CmdWord.getField_setField_of_apart W p.2 hl.1 h.1]

/-- Of fields apart from one another each reads as the low bits of its value. -/
theorem getField_writeFields {f : Field} {v : Word} {l : List (Field × Word)} (hl : ∀ p ∈ l, p.1.present = true)
    (ha : (l.map Prod.fst).Pairwise fun f g => f.apart g = true) (h : (f, v) ∈ l) (W : CmdWord) :
    (writeFields W l).getField f = v &&& lowMask f.width := by
  induction l generalizing W with
  | nil => exact absurd h List.not_mem_nil
  | cons p l ih =>
    rw [List.map_cons, List.pairwise_cons] at ha
    rw [List.forall_mem_cons] at hl
    rw [writeFields_cons]
    obtain rfl | h := List.mem_cons.1 h
    · rw [getField_writeFields_of_apart hl.2 (fun q hq => ha.1 q.1 (List.mem_map_of_mem hq)), CmdWord.getField_setField W v hl.1]
    · exact ih hl.2 ha.2 h _

/-- Writing a field sets bits of that field only. -/
theorem bitsIn_setField {fs : List Field} {f : Field} {j : Nat} {W : CmdWord} (v : Word) (hf : f.present = true) (hm : f ∈ fs)
    (h : bitsIn fs j (W.get j)) : bitsIn fs j ((W.setField f v).get j) := by
  intro k hk hb
  by_cases hh : f.holds j k
  · exact (inFields_iff fs j k).2 ⟨f, hm, hh⟩
  · exact h k hk (((CmdWord.bit_setField W v hf j k).trans (if_neg hh)).symm.trans hb)

theorem bitsIn_writeFields {fs : List Field} {l : List (Field × Word)} {j : Nat} {W : CmdWord}
    (hl : ∀ p ∈ l, p.1.present = true) (hm : ∀ p ∈ l, p.1 ∈ fs) (h : bitsIn fs j (W.get j)) :
    bitsIn fs j ((writeFields W l).get j) := by
  induction l generalizing W with
  | nil => exact h
  | cons p l ih =>
    rw [List.forall_mem_cons] at hl hm
    exact ih hl.2 hm.2 (bitsIn_setField p.2 hl.1 hm.1 h)

/-! ### The words build starts from -/

section
variable {L : Layout}

/-- The word of a reset token is clean. -/
theorem cleanWord_zero : CleanWord L CmdWord.zero := by
  refine ⟨fun j _ _ k _ hb => ?_, .inr (CmdWord.getField_zero _), ?_, ?_⟩
  · rw [CmdWord.get_zero] at hb
    simp at hb
  · rw [CmdWord.getField_zero]; decide
  · rw [CmdWord.getField_zero]; decide

/-- No part of a two-bit code other than 3 is 3. -/
theorem and_ne_three {c : BitVec 2} (h : c ≠ 3) (m : Word) : c.setWidth 64 &&& m ≠ 3 := by
  intro e
  have e0 := congrArg (·.getLsbD 0) e
  have e1 := congrArg (·.getLsbD 1) e
  clear e
  revert h e0 e1
  simp only [BitVec.getLsbD_and, BitVec.getLsbD_setWidth]
  generalize m.getLsbD 0 = m0, m.getLsbD 1 = m1
  revert c m0 m1
  decide

/-- The code of an opcode names an opcode (R131). -/
theorem opcodeOf_opcode_isSome (o : Opcode) : (L.opcodeOf (L.opcode o)).isSome = true := by
  rw [Layout.opcodeOf, List.find?_isSome]
  exact ⟨o, by cases o <;> decide, by simp⟩

theorem opcodeIn_isSome {W : CmdWord} {o : Opcode} (h : W.getField L.opc = (L.opcode o).setWidth 64) :
    (L.opcodeIn W).isSome = true := by
  have hn : ¬ 256 ≤ ((L.opcode o).setWidth 64).toNat := by
    have := (L.opcode o).isLt
    rw [BitVec.toNat_setWidth]
    omega
  have hc : ((L.opcode o).setWidth 64).setWidth 8 = L.opcode o := by simp
  simp only [Layout.opcodeIn, h, if_neg hn, hc, opcodeOf_opcode_isSome]

/-- A byte in a field of at least eight bits is not cut. -/
theorem byte_and_lowMask (b : Byte) {w : Nat} (h : 8 ≤ w) : b.setWidth 64 &&& lowMask w = b.setWidth 64 := by
  apply BitVec.eq_of_getLsbD_eq
  intro i hi
  rw [BitVec.getLsbD_and, getLsbD_lowMask, BitVec.getLsbD_setWidth]
  by_cases hb : i < 8
  · simp [show i < w by omega, hi]
  · simp [BitVec.getLsbD_of_ge b i (by omega)]

theorem cleanWord_writeFields (ha : L.admissible = true) (hu : L.unambiguous = true) {l : List (Field × Word)}
    (hl : (l.map Prod.fst).Sublist L.builtFields) {o : Opcode} {dir msize : BitVec 2} (hd : dir ≠ 3) (hm : msize ≠ 3)
    (ho : (L.opc, (L.opcode o).setWidth 64) ∈ l) (hdir : (L.dir, dir.setWidth 64) ∈ l) (hms : (L.msize, msize.setWidth 64) ∈ l) :
    CleanWord L (writeFields CmdWord.zero l) := by
  simp only [Layout.admissible, Layout.wideEnough, Bool.and_eq_true, decide_eq_true_eq] at ha
  obtain ⟨⟨⟨⟨⟨hw, -⟩, -⟩, -⟩, -, hopc⟩, -⟩ := ha
  have hs : (l.map Prod.fst).Sublist L.allFields := hl.trans Layout.builtFields_sublist
  have hmem : ∀ p ∈ l, p.1 ∈ L.allFields := fun p hp => hs.subset (List.mem_map_of_mem hp)
  have hp : ∀ p ∈ l, p.1.present = true := fun p hp => Layout.present_of_mem hw (hmem p hp)
  have hpw := (L.allFields_pairwise hu).sublist hs
  have zero (j : Nat) (hj : j < 8) : bitsIn L.allFields j (CmdWord.zero.get j) :=
    cleanWord_zero.1 j hj (.inr (.inr (CmdWord.getField_zero _)))
  refine ⟨fun j hj _ => bitsIn_writeFields hp hmem (zero j hj), .inl ?_, ?_, ?_⟩
  · exact opcodeIn_isSome (o := o) (by rw [getField_writeFields hp hpw ho, byte_and_lowMask _ hopc])
  · rw [getField_writeFields hp hpw hdir]
    exact and_ne_three hd _
  · rw [getField_writeFields hp hpw hms]
    exact and_ne_three hm _

/-- The operands `build` writes into every word (40_cmdgen.md R172). -/
def builtOperands (L : Layout) (req : BuildReq) (o : Opcode) (dir : Dir) (dsz : BitVec 2) (dup : Bool) (src dst : BitVec 56) :
    List (Field × Word) :=
  [(L.opc, (L.opcode o).setWidth 64), (L.dir, dir.code.setWidth 64), (L.hwOnly, req.hwOnly.setWidth 64),
   (L.dupChk, if dup then 1 else 0), (L.dsize, dsz.setWidth 64), (L.msize, req.msize.setWidth 64), (L.src, src.setWidth 64),
   (L.dst, dst.setWidth 64)]

/-- The three sub-fields with their values (R204). -/
def auxOperands (L : Layout) (aux0 aux1 aux2 : Word) : List (Field × Word) := [(L.aux0, aux0), (L.aux1, aux1), (L.aux2, aux2)]

/-- What `build` can answer a request with: the operands written into an empty word, and of a passthrough the sub-fields. -/
def Built (L : Layout) (req : BuildReq) (W : CmdWord) : Prop :=
  ∃ o dir dsz dup src dst, W = writeFields CmdWord.zero (builtOperands L req o dir dsz dup src dst)
    ∨ ∃ aux0 aux1 aux2, W = writeFields CmdWord.zero (builtOperands L req o dir dsz dup src dst ++ auxOperands L aux0 aux1 aux2)

theorem Dir.code_ne_three (d : Dir) : d.code ≠ 3 := by cases d <;> decide

theorem Built.cleanWord (ha : L.admissible = true) (hu : L.unambiguous = true) {req : BuildReq} {W : CmdWord}
    (hm : req.msize ≠ 3) (h : Built L req W) : CleanWord L W := by
  obtain ⟨o, dir, dsz, dup, src, dst, rfl | ⟨aux0, aux1, aux2, rfl⟩⟩ := h
  · refine cleanWord_writeFields ha hu ?_ (o := o) (Dir.code_ne_three dir) hm ?_ ?_ ?_
    · exact List.sublist_append_left [L.opc, L.dir, L.hwOnly, L.dupChk, L.dsize, L.msize, L.src, L.dst] L.auxFields
    all_goals simp [builtOperands]
  · refine cleanWord_writeFields ha hu (List.Sublist.refl _) (o := o) (Dir.code_ne_three dir) hm ?_ ?_ ?_
    all_goals simp [builtOperands]

/-! ### The words build answers (40_cmdgen.md R171-R209) -/

section
variable {c : Cfg} {req : BuildReq} {W : CmdWord}

theorem built_builtWord (o : Opcode) (dir : Dir) (dsz : BitVec 2) (dup : Bool) (src dst : BitVec 56) :
    Built L req (builtWord L req o dir dsz dup src dst) := ⟨o, dir, dsz, dup, src, dst, .inl rfl⟩

theorem buildRead_built (h : buildRead L c req = .ok W) : Built L req W := by
  unfold buildRead at h
  split at h <;> cases h
  exact built_builtWord ..

theorem buildWrite_built (h : buildWrite L c req = .ok W) : Built L req W := by
  unfold buildWrite at h
  split at h <;> cases h
  exact built_builtWord ..

theorem buildNoData_built {o : Opcode} {src dst : BitVec 56} (h : buildNoData L c req o src dst = .ok W) : Built L req W := by
  unfold buildNoData at h
  split at h <;> cases h
  exact built_builtWord ..

theorem buildGetParams_built (h : buildGetParams L c req = .ok W) : Built L req W := by
  unfold buildGetParams at h
  split at h <;> cases h
  exact built_builtWord ..

theorem buildSetParams_built (h : buildSetParams L c req = .ok W) : Built L req W := by
  unfold buildSetParams at h
  split at h <;> cases h
  exact built_builtWord ..

theorem buildSeqAdvance_built (h : buildSeqAdvance L c req = .ok W) : Built L req W := by
  unfold buildSeqAdvance at h
  split at h
  · cases h
  split_ifs at h
  cases h
  exact built_builtWord ..

theorem buildPassthrough_built (h : buildPassthrough L req = .ok W) : Built L req W := by
  unfold buildPassthrough at h
  split_ifs at h
  split at h
  · cases h
  split at h <;> cases h
  exact ⟨_, _, _, _, _, _, .inr ⟨_, _, _, rfl⟩⟩

theorem buildRaw_built (h : buildRaw L c req = .ok W) : Built L req W := by
  unfold buildRaw at h
  split at h
  · cases h
  split_ifs at h
  split at h <;> cases h
  exact built_builtWord ..

/-- What both branches of a choice answer, the choice answers. -/
theorem of_ite_ok {p Q : Prop} [Decidable p] {a b : Except OpError CmdWord} (ha : a = .ok W → Q) (hb : b = .ok W → Q)
    (h : (if p then a else b) = .ok W) : Q := by
  split at h
  · exact ha h
  · exact hb h

theorem buildWord_built (h : buildWord L c req = .ok W) : req.msize ≠ 3 ∧ Built L req W := by
  unfold buildWord at h
  by_cases hk : 14 < req.kind.toNat
  · rw [if_pos hk] at h
    cases h
  by_cases hm : req.msize = 3
  · rw [if_neg hk, if_pos hm] at h
    cases h
  rw [if_neg hk, if_neg hm] at h
  refine ⟨hm, ?_⟩
  exact of_ite_ok buildRead_built (of_ite_ok buildWrite_built (of_ite_ok buildNoData_built (of_ite_ok buildNoData_built
    (of_ite_ok buildNoData_built (of_ite_ok buildGetParams_built (of_ite_ok buildSetParams_built
    (of_ite_ok buildPassthrough_built (of_ite_ok buildNoData_built (of_ite_ok buildNoData_built (of_ite_ok buildNoData_built
    (of_ite_ok buildNoData_built (of_ite_ok buildNoData_built (of_ite_ok buildSeqAdvance_built buildRaw_built))))))))))))) h

end

/-! ### Finalize -/

/-- What is clean in a word depends on its bits and the header fields of `build` alone: a later word with these fields as they
were, and its bits in fields of the layout, is clean. -/
theorem CleanWord.congr {V W : CmdWord} (h : CleanWord L W) (hf : ∀ f ∈ L.builtHeader, V.getField f = W.getField f)
    (hb : ∀ j, (j < 3 ∨ 6 ≤ j ∨ W.getField L.dupChk = 0) → bitsIn L.allFields j (W.get j) → bitsIn L.allFields j (V.get j)) :
    CleanWord L V := by
  simp only [Layout.builtHeader, List.forall_mem_cons] at hf
  obtain ⟨hopc, hdir, -, hdup, -, hms, -⟩ := hf
  obtain ⟨bits, opc, dir, ms⟩ := h
  refine ⟨fun j hj hc => ?_, ?_, hdir ▸ dir, hms ▸ ms⟩
  · rw [hdup] at hc
    exact hb j hc (bits j hj hc)
  · rwa [Layout.opcodeIn, hopc]

theorem cleanWord_finalize (ha : L.admissible = true) (hu : L.unambiguous = true) {W : CmdWord} (h : CleanWord L W)
    (odd : BitVec 1) (slot : Byte) (seq : BitVec 32) (dealloc : Option (BitVec 5)) (x : BitVec 128) :
    CleanWord L (finalize L W odd slot seq dealloc x) := by
  simp only [Layout.admissible, Bool.and_eq_true] at ha
  obtain ⟨⟨⟨⟨⟨hw, -⟩, -⟩, -⟩, -⟩, -⟩ := ha
  refine finalize_keeps (fun V f v hf hV => ?_) (fun V hV => ?_) h odd slot seq dealloc x
  · have hp := Layout.present_of_mem hw (Layout.mem_allFields_of_stamped hf)
    exact hV.congr (fun g hg => CmdWord.getField_setField_of_apart V v hp (Layout.builtHeader_apart_stamped hu hg hf))
      fun _ _ hb => bitsIn_setField v hp (Layout.mem_allFields_of_stamped hf) hb
  · refine hV.congr (fun g hg => getField_mirrorWords V (L.protected_outside hu (Layout.builtHeader_subset hg))) fun j hj hb => ?_
    by_cases hout : j < 3 ∨ 6 ≤ j
    · rwa [mirrorWords_get_of_outside V hout]
    · have h0 : V.getField L.dupChk = 0 := by tauto
      rwa [mirrorWords_of_ne (by rw [h0]; decide)]

end

end Sys2Proof.Machine
end

section
/-! Every step keeps every Command Word clean (30_encoding.md R118, R119, R121, R132).  What a state holds of words changes in
three ways only: `build` answers one, finalize stamps one, and a reset token has the empty one.  A property of words that
these three have is one that every step keeps. -/

namespace Sys2Proof.Machine

open Sys2Proof

/-- Every Command Word that the state, of layout `L`, holds or has written has the property `P`. -/
structure State.AllWords (s : State) (L : Layout) (P : CmdWord → Prop) : Prop where
  layout : s.params.layout = L
  token : ∀ j, P (s.tokAt j).cmd ∧ P (s.tokAt j).wire
  submitted : ∀ p ∈ s.submitted, P p.2

/-- The words the encoder and a reset give have the property `P` (40_cmdgen.md R171, R225; 10_state.md R34). -/
structure EncoderGives (L : Layout) (P : CmdWord → Prop) : Prop where
  zero : P CmdWord.zero
  build : ∀ {c req W}, buildWord L c req = .ok W → P W
  finalize : ∀ {W}, P W → ∀ odd slot seq dealloc x, P (finalize L W odd slot seq dealloc x)

section
variable {L : Layout} {P : CmdWord → Prop} {s t : State}

/-! ### The named updates -/

/-- An update that touches neither the slots, the parameters nor what was submitted. -/
theorem State.AllWords.frame (h : s.AllWords L P) (hs : t.slots = s.slots) (hp : t.params = s.params)
    (hw : t.submitted = s.submitted) : t.AllWords L P := by
  refine ⟨hp ▸ h.layout, fun j => ?_, hw ▸ h.submitted⟩
  have e : t.tokAt j = s.tokAt j := by rw [State.tokAt, State.slotAt, hs, State.tokAt, State.slotAt]
  rw [e]
  exact h.token j

theorem State.AllWords.modSlot {i : Nat} {f : Slot → Slot}
    (hf : ∀ sl, P sl.tok.cmd ∧ P sl.tok.wire → P (f sl).tok.cmd ∧ P (f sl).tok.wire) (h : s.AllWords L P) :
    (s.modSlot i f).AllWords L P := by
  refine ⟨h.layout, fun j => ?_, h.submitted⟩
  rw [State.tokAt, State.slotAt_modSlot]
  split
  · exact hf _ (h.token j)
  · exact h.token j

theorem State.AllWords.modTok {i : Nat} {f : Token → Token} (hf : ∀ t, P t.cmd ∧ P t.wire → P (f t).cmd ∧ P (f t).wire)
    (h : s.AllWords L P) : (s.modTok i f).AllWords L P :=
  .modSlot (fun sl => hf sl.tok) h

theorem State.AllWords.modCtr {i : Nat} {f : RetryCtr → RetryCtr} (h : s.AllWords L P) : (s.modCtr i f).AllWords L P :=
  .modSlot (fun _ x => x) h

theorem State.AllWords.setResult {i : Nat} {r : Result} {w : Reason} (h : s.AllWords L P) :
    (s.setResult i r w).AllWords L P :=
  .modTok (fun _ x => x) h

theorem State.AllWords.emit {e : Event} (h : s.AllWords L P) : (s.emit e).AllWords L P := h.frame rfl rfl rfl

theorem State.AllWords.count {f : Stats → Stats} (h : s.AllWords L P) : (s.count f).AllWords L P := h.frame rfl rfl rfl

theorem State.AllWords.atTime {now : Nat} (h : s.AllWords L P) : (s.atTime now).AllWords L P := h.frame rfl rfl rfl

theorem State.AllWords.respond {d : Bool} {r : Result} (h : s.AllWords L P) : (s.respond d r).AllWords L P := h.frame rfl rfl rfl

theorem State.AllWords.respondSlot {i : Nat} (h : s.AllWords L P) : (s.respondSlot i).AllWords L P := h.frame rfl rfl rfl

theorem State.AllWords.abortHard {i : Nat} {w : Reason} (h : s.AllWords L P) : (s.abortHard i w).AllWords L P :=
  (State.AllWords.setResult h : (s.setResult i .abortHard w).AllWords L P).frame rfl rfl rfl

/-- Setting an ABORT and the flag `unspec_seen` (42_status_decoder.md R318, R340). -/
theorem State.AllWords.unspecAbort {i : Nat} {w : Reason} (h : s.AllWords L P) :
    ({ s.setResult i .abort w with unspecSeen := true } : State).AllWords L P :=
  (State.AllWords.setResult h : (s.setResult i .abort w).AllWords L P).frame rfl rfl rfl

theorem State.AllWords.writeCmd {i : Nat} {W : CmdWord} (hW : P W) (h : s.AllWords L P) : (s.writeCmd i W).AllWords L P := by
  refine ⟨by simpa using h.layout, fun j => by simpa using h.token j, fun p hp => ?_⟩
  rw [State.writeCmd_submitted, List.mem_append, List.mem_singleton] at hp
  obtain hp | rfl := hp
  · exact h.submitted p hp
  · exact hW

theorem State.AllWords.refreshSlots {y : TokenType} (h : s.AllWords L P) : (s.refreshSlots y).AllWords L P :=
  ⟨h.layout, fun j => by rw [State.refreshSlots_tokAt]; exact h.token j, h.submitted⟩

theorem State.AllWords.setRefreshTime {y : TokenType} {now : Nat} (h : s.AllWords L P) :
    (s.setRefreshTime y now).AllWords L P :=
  h.frame (by simp) (by simp) (by simp)

theorem State.AllWords.ite {c : Prop} [Decidable c] (h : s.AllWords L P) (k : t.AllWords L P) :
    (if c then s else t).AllWords L P := by
  split
  · exact h
  · exact k

/-! ### Re-writes, lost commands, timeouts and out-of-order recovery (43_timeout_ooo.md) -/

theorem State.AllWords.rewrite {j : Nat} {cause : RewriteCause} {now : Nat} (h : s.AllWords L P) :
    (s.rewrite j cause now).AllWords L P :=
  .ite h (.emit (.modTok (fun _ x => x) (.writeCmd (h.token j).2 h)))

theorem State.AllWords.lostCheck {i now : Nat} (h : s.AllWords L P) : (s.lostCheck i now).AllWords L P :=
  .ite (.count (.modTok (fun _ x => x) (.rewrite h))) h

theorem State.AllWords.oooTimeout {i now : Nat} (h : s.AllWords L P) : (s.oooTimeout i now).AllWords L P := by
  rw [State.oooTimeout]
  exact .ite (.modTok (fun _ x => x) (.count (.rewrite h))) (.modTok (fun _ x => x) (.count (.rewrite h)))

theorem Token.clearDealloc_words {k : Token} {c : Cfg} (h : P k.cmd ∧ P k.wire) :
    P (k.clearDealloc c).cmd ∧ P (k.clearDealloc c).wire := by
  rw [Token.clearDealloc]
  split <;> exact h

theorem State.AllWords.realTimeout {i : Nat} (h : s.AllWords L P) : (s.realTimeout i).AllWords L P := by
  rw [State.realTimeout]
  exact .setResult (.modTok (fun _ x => Token.clearDealloc_words x) (.count (.ite h (.emit h))))

theorem State.AllWords.timeoutCheck {i now : Nat} (h : s.AllWords L P) : (s.timeoutCheck i now).AllWords L P :=
  .ite (.ite (.count h) (.ite (.modTok (fun _ x => x) (.emit h)) (.ite (.oooTimeout h) (.realTimeout h)))) h

theorem State.AllWords.armMissing {now qt : Nat} {l : List Nat} (h : s.AllWords L P) : (s.armMissing now qt l).AllWords L P := by
  induction l generalizing s with
  | nil => exact h
  | cons j js ih => exact ih (.modTok (fun _ x => x) h)

theorem State.AllWords.replayNow {now : Nat} {l : List Nat} (h : s.AllWords L P) : (s.replayNow now l).AllWords L P := by
  induction l generalizing s with
  | nil => exact h
  | cons j js ih => exact .ite h (ih (.count (.rewrite h)))

theorem State.AllWords.oooHandle {i : Nat} {v : Word} {now : Nat} (h : s.AllWords L P) : (s.oooHandle i v now).AllWords L P := by
  rw [State.oooHandle]
  split
  · exact .emit h
  · exact .ite (.armMissing h) (.replayNow h)
  · exact .modTok (fun _ x => x) h

/-! ### The decode of a status byte (42_status_decoder.md) -/

theorem State.AllWords.extFetched {i : Nat} (h : s.AllWords L P) : (s.extFetched i).AllWords L P := by
  rw [State.extFetched]
  exact .modTok (fun _ x => x) h

theorem State.AllWords.freeWbufs {i : Nat} (h : s.AllWords L P) : (s.freeWbufs i).AllWords L P :=
  .ite h (.modTok (fun _ x => x) (.emit h))

theorem State.AllWords.logExt {i : Nat} {b : Byte} {level : LogLevel} {what : LogWhat} (h : s.AllWords L P) :
    (s.logExt i b level what).AllWords L P :=
  .ite (.emit (.extFetched h)) (.emit h)

theorem State.AllWords.success {i : Nat} {b : Byte} (h : s.AllWords L P) : (s.success i b).AllWords L P := by
  have hb : (s.successBuffers i b).AllWords L P :=
    .ite (.ite (.emit (.modTok (fun _ x => x) h)) h) (.freeWbufs h)
  rw [State.success]
  exact .modTok (fun _ x => x) (.ite (.emit (.count (.extFetched hb))) hb)

theorem State.AllWords.progress {i : Nat} {c : StatusCode} {now : Nat} (h : s.AllWords L P) :
    (s.progress i c now).AllWords L P := by
  have hg : (s.modTok i fun t => { t.arm now (s.params.cfg.tmo t.cls (progressStage c)) with stage := progressStage c }).AllWords
      L P :=
    .modTok (fun _ x => x) h
  have hf := hg.freeWbufs (i := i)
  rw [State.progress]
  exact .ite h (.ite (.ite (.emit (.modTok (fun _ x => x) hf)) hf) hg)

theorem State.AllWords.decFieldError {i : Nat} (h : s.AllWords L P) : (s.decFieldError i).AllWords L P :=
  .setResult (.modTok (fun _ x => by split <;> exact x) (.count h))

theorem State.AllWords.unknownHw {i : Nat} (h : s.AllWords L P) : (s.unknownHw i).AllWords L P :=
  .ite (.abortHard (.count h)) (.setResult (.count h))

theorem State.AllWords.fcXsum {i : Nat} (h : s.AllWords L P) : (s.fcXsum i).AllWords L P :=
  .ite (.setResult (.modCtr h)) (.setResult (.modCtr h))

theorem State.AllWords.fcWep {i : Nat} (h : s.AllWords L P) : (s.fcWep i).AllWords L P :=
  .ite (.setResult (.modCtr h)) (.setResult (.modCtr h))

theorem State.AllWords.decIllegal {i : Nat} {b : Byte} (h : s.AllWords L P) : (s.decIllegal i b).AllWords L P := by
  have hc : (s.count fun c => { c with illegal := c.illegal + 1 }).AllWords L P := .count h
  rw [State.decIllegal]
  refine .ite (.setResult hc) ?_
  dsimp only
  split
  · exact .abortHard (.extFetched hc)
  · exact .fcXsum (.extFetched hc)
  · exact .fcWep (.extFetched hc)
  · exact .setResult (.extFetched hc)
  · exact .setResult (.extFetched hc)
  · exact .unknownHw (.extFetched hc)
  · exact .unspecAbort (.extFetched hc)

theorem State.AllWords.decExeError {i : Nat} {b : Byte} (h : s.AllWords L P) : (s.decExeError i b).AllWords L P :=
  .ite (.abortHard (.logExt (.count h))) (.setResult (.count h))

theorem State.AllWords.decEccError {i : Nat} (h : s.AllWords L P) : (s.decEccError i).AllWords L P :=
  .ite (.setResult (.modCtr (.count h))) (.setResult (.modCtr (.count h)))

theorem State.AllWords.decXsumError {i : Nat} (h : s.AllWords L P) : (s.decXsumError i).AllWords L P :=
  .ite (.setResult (.modCtr (.count h))) (.unknownHw (.modCtr (.count h)))

theorem State.AllWords.decDevWarning {i : Nat} {b : Byte} {now : Nat} (h : s.AllWords L P) :
    (s.decDevWarning i b now).AllWords L P := by
  rw [State.decDevWarning]
  exact .modTok (fun _ x => x) (.logExt (.count h))

theorem State.AllWords.decDupError {i : Nat} (h : s.AllWords L P) : (s.decDupError i).AllWords L P := by
  rw [State.decDupError]
  exact .ite (.modTok (fun _ x => x) (.ite (.freeWbufs (.count h)) (.count h)))
    (.ite (.setResult (.count h)) (.setResult (.count h)))

theorem State.AllWords.decOoo {i : Nat} {b : Byte} {now : Nat} (h : s.AllWords L P) : (s.decOoo i b now).AllWords L P := by
  have hs : ((s.count fun c => { c with ooo := c.ooo + 1 }).modTok i fun t => { t with seenInHw := true }).AllWords L P :=
    .modTok (fun _ x => x) (.count h)
  rw [State.decOoo]
  exact .ite h (.ite (.oooHandle (.extFetched hs)) hs)

theorem State.AllWords.decodeCode {i : Nat} {b : Byte} {now : Nat} (c : StatusCode) (h : s.AllWords L P) :
    (s.decodeCode i b now c).AllWords L P := by
  cases c with
  | queued | received | pending | sequenced => exact .progress h
  | collision => exact .setResult (.count h)
  | fieldError => exact .decFieldError h
  | illegalCmd => exact .decIllegal h
  | exeError => exact .decExeError h
  | eccError => exact .decEccError h
  | unknownHw => exact .unknownHw h
  | xsumError => exact .decXsumError h
  | devWarning => exact .decDevWarning h
  | dupError => exact .decDupError h
  | ooo => exact .decOoo h

theorem State.AllWords.decodeStatus {i : Nat} {b : Byte} {now : Nat} (h : s.AllWords L P) :
    (s.decodeStatus i b now).AllWords L P := by
  have hm : (s.modTok i fun t => { t with oooMissing := false }).AllWords L P := .modTok (fun _ x => x) h
  obtain e | ⟨c, e⟩ | e := s.decodeStatus_cases _ i b now rfl <;> rw [e]
  · exact .success hm
  · exact .decodeCode c hm
  · exact .unspecAbort hm

/-! ### POLL (42_status_decoder.md R280, R281) -/

theorem State.AllWords.pollStatus {i now : Nat} (h : s.AllWords L P) : (s.pollStatus i now).AllWords L P := by
  rw [State.pollStatus]
  split
  · exact h
  next b _ =>
    have ho : (s.observe i b now).AllWords L P := .emit (.count (.modTok (fun _ x => x) h))
    exact .ite (.decodeStatus ho) ho

theorem State.AllWords.finish {i : Nat} (h : s.AllWords L P) : (s.finish i).AllWords L P := by
  have hd : (s.modTok i fun t => { t with st := .done }).AllWords L P := .modTok (fun _ x => x) h
  obtain ⟨-, e⟩ | ⟨-, e⟩ := s.finish_cases i <;> rw [e]
  · exact .respond h
  · exact hd.frame rfl rfl rfl

theorem State.AllWords.pollActive {i now : Nat} (h : s.AllWords L P) : (s.pollActive i now).AllWords L P := by
  have hs : (s.pollStatus i now).AllWords L P := .pollStatus h
  have hl : ((s.pollStatus i now).whilePending i fun s => s.lostCheck i now).AllWords L P := .ite (.lostCheck hs) hs
  rw [State.pollActive]
  exact .finish (.ite (.timeoutCheck hl) hl)

theorem State.AllWords.opPoll {i now : Nat} (h : s.AllWords L P) (e : s.opPoll i now = .ok t) : t.AllWords L P := by
  unfold State.opPoll at e
  split_ifs at e <;> cases e
  · exact .respond (.atTime h)
  · exact .pollActive (.atTime h)

/-! ### Binding and launching words (41_token_pool.md R245, R251, R257) -/

theorem State.AllWords.bind (hP : EncoderGives L P) {i : Nat} {req : BuildReq} {W : CmdWord} {f : Token → Token}
    (hf : ∀ t, (f t).cmd = W ∧ (f t).wire = t.wire) (hW : buildWord s.params.layout s.params.cfg req = .ok W) (h : s.AllWords L P) :
    (s.modTok i f).AllWords L P := by
  rw [h.layout] at hW
  refine .modTok (fun t x => ?_) h
  obtain ⟨hc, hw⟩ := hf t
  rw [hc, hw]
  exact ⟨hP.build hW, x.2⟩

theorem State.AllWords.launch (hP : EncoderGives L P) {i now : Nat} (h : s.AllWords L P) : (s.launch i now).AllWords L P := by
  cases hf : s.filterAllows (s.launchWord i)
  · rw [s.launch_denied i now hf]
    exact (State.AllWords.modTok (f := Token.denied) (i := i) (fun _ x => x) h).frame rfl rfl rfl
  · have hW : P (s.launchWord i) := by
      rw [State.launchWord, h.layout]
      exact hP.finalize (h.token i).1 ..
    have hl : ((s.modSlot i fun sl => { sl with
        odd := s.nextOdd i,
        tok := sl.tok.launched s.params.cfg (s.nextOdd i) (s.assignSeq i) (s.launchWord i) sl.cache now }).writeCmd i
          (s.launchWord i)).AllWords L P :=
      .writeCmd hW (.modSlot (fun _ x => ⟨x.1, hW⟩) h)
    rw [s.launch_allowed i now hf]
    exact hl.frame rfl rfl rfl

theorem State.AllWords.opBuild (hP : EncoderGives L P) {i : Nat} {req : BuildReq} (h : s.AllWords L P)
    (e : s.opBuild i req = .ok t) : t.AllWords L P := by
  unfold State.opBuild at e
  split_ifs at e
  split at e <;> cases e
  next hW => exact .bind hP (fun _ => ⟨rfl, rfl⟩) hW h

theorem State.AllWords.opIssue (hP : EncoderGives L P) {i : Nat} {dealloc : Option (BitVec 5)} {xsum : BitVec 128} {now : Nat}
    (h : s.AllWords L P) (e : s.opIssue i dealloc xsum now = .ok t) : t.AllWords L P := by
  unfold State.opIssue at e
  split_ifs at e
  cases e
  exact .launch hP (.modTok (fun _ x => x) (.atTime h))

theorem State.AllWords.rebind (hP : EncoderGives L P) {i : Nat} {req : Option BuildReq} (h : s.AllWords L P)
    (e : s.rebind i req = .ok t) : t.AllWords L P := by
  unfold State.rebind at e
  split at e
  · cases e
    exact h
  split_ifs at e
  split at e <;> cases e
  next hW => exact .bind hP (fun _ => ⟨rfl, rfl⟩) hW h

theorem State.AllWords.opReissue (hP : EncoderGives L P) {i : Nat} {req : Option BuildReq} {now : Nat} (h : s.AllWords L P)
    (e : s.opReissue i req now = .ok t) : t.AllWords L P := by
  unfold State.opReissue at e
  split_ifs at e
  · cases e
    exact .respond (.setResult (.atTime h))
  split at e <;> cases e
  next hb => exact .launch hP (.modTok (fun _ x => x) (.rebind hP (.atTime h) hb))

/-! ### The other operations (41_token_pool.md) -/

theorem State.AllWords.opAlloc {kind : Byte} {carry : Nat} (h : s.AllWords L P) (e : s.opAlloc kind carry = .ok t) :
    t.AllWords L P := by
  have hd : s.drawn.AllWords L P := h.frame rfl rfl rfl
  unfold State.opAlloc at e
  split_ifs at e
  cases e
  exact .respondSlot (.modTok (fun _ x => x) hd)

theorem State.AllWords.opAllocId {i : Nat} {kind : Byte} (h : s.AllWords L P) (e : s.opAllocId i kind = .ok t) :
    t.AllWords L P := by
  unfold State.opAllocId at e
  split_ifs at e
  cases e
  exact .respondSlot (.modTok (fun _ x => x) h)

theorem State.AllWords.opDetach {i : Nat} (h : s.AllWords L P) (e : s.opDetach i = .ok t) : t.AllWords L P := by
  unfold State.opDetach at e
  split_ifs at e
  cases e
  exact .modTok (fun _ x => x) h

theorem State.AllWords.opRelease (hP : EncoderGives L P) {i : Nat} (h : s.AllWords L P) (e : s.opRelease i = .ok t) :
    t.AllWords L P := by
  unfold State.opRelease at e
  split_ifs at e
  cases e
  exact .modSlot (fun _ _ => ⟨hP.zero, hP.zero⟩) (.emit h)

theorem State.AllWords.opRefresh {y : TokenType} {now : Nat} (h : s.AllWords L P) (e : s.opRefresh y now = .ok t) :
    t.AllWords L P := by
  unfold State.opRefresh at e
  split_ifs at e
  cases e
  exact .setRefreshTime (.refreshSlots (.atTime h))

theorem State.AllWords.doReset (hP : EncoderGives L P) (h : s.AllWords L P) : s.doReset.AllWords L P :=
  ⟨h.layout, fun j => by rw [State.doReset_tokAt]; exact ⟨hP.zero, hP.zero⟩, h.submitted⟩

/-! ### Every instruction and every step -/

theorem State.AllWords.begin (h : s.AllWords L P) : s.begin.AllWords L P := h.frame rfl rfl rfl

theorem State.AllWords.answered {r : Response} (h : s.AllWords L P) : (s.answered r).AllWords L P := h.frame rfl rfl rfl

/-- An operation whose effect keeps a property of words keeps it, also where it answers an error. -/
theorem State.AllWords.answer {r : Except OpError State} (h : s.AllWords L P) (e : s.answer r = .next t)
    (hr : ∀ u, r = .ok u → u.AllWords L P) : t.AllWords L P := by
  obtain e | ⟨_, -, rfl⟩ := s.answer_cases t r e
  · exact hr t e
  · exact .answered h

theorem State.AllWords.exec (hP : EncoderGives L P) {i : Instr} (h : s.AllWords L P) (e : exec i s = .next t) :
    t.AllWords L P := by
  by_cases hc : i.opBytes = none
  · obtain ⟨hd, st, req, hx⟩ := exec_command i s hc
    rw [hx, State.encodeCommand_eq] at e
    cases e
    exact .answered h
  cases i
  case opReset => cases e; exact .doReset hP h
  case encBuild => cases (execEncBuild_eq ..).symm.trans e; exact .answered h
  case encFinalize => cases e; exact h.frame rfl rfl rfl
  case alloc => exact h.answer e fun _ => .opAlloc h.begin
  case allocId => exact h.answer e fun _ => .opAllocId h.begin
  case build => exact h.answer e fun _ => .opBuild hP h.begin
  case issue => exact h.answer e fun _ => .opIssue hP h.begin
  case statusRefresh => exact h.answer e fun _ => .opRefresh h.begin
  case poll => exact h.answer e fun _ => .opPoll h.begin
  case reissue => exact h.answer e fun _ => .opReissue hP h.begin
  case detach => exact h.answer e fun _ => .opDetach h.begin
  case release => exact h.answer e fun _ => .opRelease hP h.begin
  all_goals exact absurd rfl hc

theorem State.AllWords.rejectRequest {d : DecodeError} (h : s.AllWords L P) (e : s.rejectRequest d = .next t) :
    t.AllWords L P := by
  cases d <;> cases e <;> exact h.frame rfl rfl rfl

theorem State.AllWords.stepRequest (hP : EncoderGives L P) {q : Request} (h : s.AllWords L P) (e : stepRequest s q = .next t) :
    t.AllWords L P := by
  rw [Machine.stepRequest] at e
  split at e
  · exact h.exec hP e
  · exact h.rejectRequest e

theorem configOk_of_step (e : step s = .next t) : s.configOk = true := by
  by_contra h
  rw [step, if_pos (by simpa using h)] at e
  cases e

theorem State.AllWords.step (hP : EncoderGives L P) (h : s.AllWords L P) (e : step s = .next t) : t.AllWords L P := by
  have hr (rest : List Input) : ({ s with inputs := rest } : State).AllWords L P := h.frame rfl rfl rfl
  rw [Machine.step, if_neg (by simp [configOk_of_step e])] at e
  split at e
  · cases e
    exact h
  · exact (hr _).stepRequest hP e
  · obtain ⟨ht, -⟩ := State.deviceWrite_spec _ t _ e
    rw [ht]
    exact h.frame rfl rfl rfl

end

/-! ### Clean words -/

theorem encoderGives_cleanWord {L : Layout} (ha : L.admissible = true) (hu : L.unambiguous = true) :
    EncoderGives L (CleanWord L) where
  zero := cleanWord_zero
  build h := (buildWord_built h).2.cleanWord ha hu (buildWord_built h).1
  finalize h := cleanWord_finalize ha hu h

/-- The invariant of the words is that of the slots of the table: past it stands the reset token with the empty word. -/
theorem State.cleanInv_iff (s : State) : s.CleanInv ↔ s.AllWords s.params.layout (CleanWord s.params.layout) := by
  constructor
  · rintro ⟨htok, hsub⟩
    refine ⟨rfl, fun j => ?_, hsub⟩
    by_cases hj : j < s.numSlots
    · exact htok j hj
    · rw [State.tokAt, s.slotAt_out j (Nat.le_of_not_lt hj)]
      exact ⟨cleanWord_zero, cleanWord_zero⟩
  · exact fun h => ⟨fun j _ => h.token j, h.submitted⟩

/-- Settles O16: clean words are among the properties of words that the encoder and a reset give. -/
theorem commandWordsStayClean : Obligations.CommandWordsStayClean := by
  intro s t hu h e
  have ha : s.params.layout.admissible = true := by
    have hc := configOk_of_step e
    simp only [State.configOk, Bool.and_eq_true] at hc
    exact hc.2
  have ht := (s.cleanInv_iff.1 h).step (encoderGives_cleanWord ha hu) e
  rw [State.cleanInv_iff, ht.layout]
  exact ht

end Sys2Proof.Machine
end

section
/-! ENC_FINALIZE field by field: the word it answers holds each stamped field, and every other bit that the duplication
does not overwrite is the operand's (40_cmdgen.md R226-R231). -/

namespace Sys2Proof

/-! ### Fields and bits -/

theorem inFields_eq_false_iff (fs : List Field) (j k : Nat) : inFields fs j k = false ↔ ∀ f ∈ fs, ¬ f.holds j k := by
  rw [← Bool.not_eq_true, inFields_iff]
  simp only [not_exists, not_and]

/-- A mask as wide as a value leaves it as it is. -/
theorem setWidth_and_lowMask {n w : Nat} (v : BitVec n) (h : n ≤ w) : v.setWidth 64 &&& lowMask w = v.setWidth 64 := by
  apply BitVec.eq_of_getLsbD_eq
  intro i hi
  rw [BitVec.getLsbD_and, getLsbD_lowMask, BitVec.getLsbD_setWidth]
  by_cases hn : i < n
  · simp [hi, show i < w by omega]
  · simp [BitVec.getLsbD_of_ge v i (by omega)]

/-- A field that reads as a value of its width holds the bits of the value. -/
theorem CmdWord.extractLsb'_of_getField {V : CmdWord} {j lo n : Nat} {v : BitVec n} (hn : lo + n ≤ 64)
    (h : V.getField ⟨j, lo, n⟩ = v.setWidth 64) : (V.get j).extractLsb' lo n = v := by
  have e := getField_setWidth V ⟨j, lo, n⟩ hn
  rw [h, BitVec.setWidth_setWidth_of_le v (show n ≤ 64 by omega), BitVec.setWidth_eq] at e
  exact e.symm

theorem CmdWord.extractLsb'_congr {V W : CmdWord} {j lo n : Nat} (h : ∀ i, i < n → V.bit j (lo + i) = W.bit j (lo + i)) :
    (V.get j).extractLsb' lo n = (W.get j).extractLsb' lo n := by
  apply BitVec.eq_of_getLsbD_eq
  intro i hi
  rw [BitVec.getLsbD_extractLsb', BitVec.getLsbD_extractLsb']
  exact congrArg _ (h i hi)

theorem CmdWord.extractLsb'_of_bit {V : CmdWord} {n j k b : Nat} {x : BitVec n} (h : V.bit j k = x.getLsbD b) :
    (V.get j).extractLsb' k 1 = x.extractLsb' b 1 := by
  apply BitVec.eq_of_getLsbD_eq
  intro i hi
  obtain rfl : i = 0 := by omega
  rw [BitVec.getLsbD_extractLsb', BitVec.getLsbD_extractLsb']
  exact congrArg _ h

/-! ### What a layout says of the stamped fields -/

section
variable {L : Layout}

theorem Layout.admissible_iff :
    L.admissible = true ↔ L.eightWords = true ∧ L.mirrors = true ∧ L.sixPolarities = true ∧ L.subFields = true
      ∧ L.wideEnough = true ∧ L.headerApart = true := by
  simp only [Layout.admissible, Bool.and_eq_true, and_assoc]

/-- The stamped header fields are as wide as their operands. -/
theorem Layout.stamped_wide (hwide : L.wideEnough = true) (ho : L.holdsOperands = true) :
    8 ≤ L.slot.width ∧ 32 ≤ L.seq.width ∧ 1 ≤ L.deallocV.width ∧ 5 ≤ L.deallocId.width := by
  simp only [Layout.wideEnough, Bool.and_eq_true, decide_eq_true_eq] at hwide
  simp only [Layout.holdsOperands, Bool.and_eq_true, List.all_cons, decide_eq_true_eq] at ho
  omega

theorem Layout.stampedHeader_pairwise (h : L.headerApart = true) : L.stampedHeader.Pairwise fun f g => f.apart g = true := by
  have hp := L.header_pairwise_of_headerApart h
  have sub : [L.slot, L.seq, L.deallocV, L.deallocId].Sublist L.header :=
    .cons _ <| .cons_cons _ <| .cons_cons _ <| .cons _ <| .cons _ <| .cons _ <| .cons _ <| .cons _ <| .refl _
  have perm : [L.slot, L.seq, L.deallocV, L.deallocId].Perm L.stampedHeader :=
    .cons _ (List.perm_append_comm (l₁ := [L.seq]) (l₂ := [L.deallocV, L.deallocId]))
  exact (hp.sublist sub).perm perm Field.apart_comm

/-- The fields that stamping the header writes and what it writes to them (40_cmdgen.md R226-R228). -/
def Layout.headerStamps (L : Layout) (slot : Byte) (seq : BitVec 32) (dealloc : Option (BitVec 5)) : List (Field × Word) :=
  [(L.slot, slot.setWidth 64), (L.deallocV, (BitVec.ofBool dealloc.isSome).setWidth 64),
   (L.deallocId, (dealloc.getD 0).setWidth 64), (L.seq, seq.setWidth 64)]

theorem Layout.not_mem_polarity {j k : Nat} (h : ∀ f ∈ L.polarityFields, ¬ f.holds j k) : (j, k) ∉ L.polarity := fun hp => by
  obtain ⟨f, hf, hh⟩ := (Layout.polarityFields_holds_iff j k).2 hp
  exact h f hf hh

/-- No header, source or destination field stands where a polarity bit, a checksum field or an MSB of word 5 does. -/
theorem Layout.protected_plain (hu : L.unambiguous = true) {f : Field} (hf : f ∈ L.protectedFields) {j k : Nat}
    (hh : f.holds j k) : (j, k) ∉ L.polarity ∧ ∀ g ∈ L.xsumFields, ¬ g.holds j k := by
  have off (g : Field) (hg : g ∈ L.stampedLast) : ¬ g.holds j k :=
    Field.not_holds_of_apart (L.protected_apart_stampedLast hu hf hg) hh
  exact ⟨Layout.not_mem_polarity fun g hg => off g (by simp [Layout.stampedLast, hg]),
    fun g hg => off g (by simp [Layout.stampedLast, hg])⟩

end

end Sys2Proof

namespace Sys2Proof.Machine

open Sys2Proof

section
variable {L : Layout} (W : CmdWord) (odd : BitVec 1) (slot : Byte) (seq : BitVec 32) (dealloc : Option (BitVec 5)) (x : BitVec 128)

/-! ### The stamped fields -/

theorem stampHeader_eq_writeFields :
    stampHeader L W slot seq dealloc = writeFields W (L.headerStamps slot seq dealloc) := rfl

/-- Where the header fields overlap nowhere each stamped one holds what was written to it. -/
theorem getField_stampHeader_stamped (hw : L.eightWords = true) (hh : L.headerApart = true) {f : Field} {v : Word}
    (hf : (f, v) ∈ L.headerStamps slot seq dealloc) :
    (stampHeader L W slot seq dealloc).getField f = v &&& lowMask f.width := by
  rw [stampHeader_eq_writeFields]
  refine getField_writeFields (l := L.headerStamps slot seq dealloc) (fun p hp => ?_) (L.stampedHeader_pairwise hh) hf W
  have hmem : p.1 ∈ L.stampedHeader := List.mem_map_of_mem (f := Prod.fst) hp
  exact Layout.present_of_mem hw (Layout.header_subset (Layout.stampedHeader_subset hmem))

/-- Nothing finalize does after stamping the header touches a header, source or destination field. -/
theorem getField_finalize_protected (hw : L.eightWords = true) (hu : L.unambiguous = true) {f : Field}
    (hf : f ∈ L.protectedFields) :
    (finalize L W odd slot seq dealloc x).getField f = (stampHeader L W slot seq dealloc).getField f := by
  have hout := L.protected_outside hu hf
  refine CmdWord.getField_congr fun j k hh => ?_
  obtain ⟨hp, hx⟩ := L.protected_plain hu hf hh
  obtain ⟨rfl, -, -⟩ := hh
  rw [finalize_bit_of_plain _ _ _ _ _ _ hw hp (by omega) hx, mirrorWords_bit_of_outside _ hout]

theorem getField_finalize_stamped (hw : L.eightWords = true) (hh : L.headerApart = true) (hu : L.unambiguous = true) {f : Field}
    {n : Nat} {v : BitVec n} (hf : (f, v.setWidth 64) ∈ L.headerStamps slot seq dealloc) (hn : n ≤ f.width) :
    (finalize L W odd slot seq dealloc x).getField f = v.setWidth 64 := by
  have hmem : f ∈ L.stampedHeader := List.mem_map_of_mem (f := Prod.fst) hf
  have hprot : f ∈ L.protectedFields := List.mem_append_left _ (Layout.stampedHeader_subset hmem)
  rw [getField_finalize_protected _ _ _ _ _ _ hw hu hprot, getField_stampHeader_stamped _ _ _ _ hw hh hf,
    setWidth_and_lowMask v hn]

/-- In an admissible, unambiguous layout as wide as the operands the stamped header fields are the arguments (R226-R228). -/
theorem finalize_header_fields (ha : L.admissible = true) (hu : L.unambiguous = true) (ho : L.holdsOperands = true) :
    let V := finalize L W odd slot seq dealloc x
    V.getField L.slot = slot.setWidth 64 ∧ V.getField L.seq = seq.setWidth 64
      ∧ V.getField L.deallocV = (BitVec.ofBool dealloc.isSome).setWidth 64
      ∧ V.getField L.deallocId = (dealloc.getD 0).setWidth 64 := by
  obtain ⟨hw, -, -, -, hwide, hh⟩ := Layout.admissible_iff.1 ha
  obtain ⟨nslot, nseq, nv, nid⟩ := L.stamped_wide hwide ho
  have stamped {f : Field} {n : Nat} {v : BitVec n} (hf : (f, v.setWidth 64) ∈ L.headerStamps slot seq dealloc)
      (hn : n ≤ f.width) :=
    getField_finalize_stamped W odd slot seq dealloc x hw hh hu hf hn
  exact ⟨stamped (by simp [Layout.headerStamps]) nslot, stamped (by simp [Layout.headerStamps]) nseq,
    stamped (by simp [Layout.headerStamps]) nv, stamped (by simp [Layout.headerStamps]) nid⟩

/-- The checksum fields hold the halves of the checksum, cut to their widths (R230). -/
theorem finalize_xsum_fields (hw : L.eightWords = true) (hu : L.unambiguous = true) :
    let V := finalize L W odd slot seq dealloc x
    V.getField L.xsumLo = x.extractLsb' 0 64 &&& lowMask L.xsumLo.width
      ∧ V.getField L.xsumHi = x.extractLsb' 64 64 &&& lowMask L.xsumHi.width := by
  constructor <;> apply BitVec.eq_of_getLsbD_eq <;> intro i hi
  · rw [(finalize_getField_xsum W odd slot seq dealloc x hw hu hi).1, BitVec.getLsbD_and, getLsbD_lowMask,
      BitVec.getLsbD_extractLsb', Nat.zero_add, decide_eq_true hi, Bool.true_and, Bool.true_and, Bool.and_comm]
  · rw [(finalize_getField_xsum W odd slot seq dealloc x hw hu hi).2, BitVec.getLsbD_and, getLsbD_lowMask,
      BitVec.getLsbD_extractLsb', decide_eq_true hi, Bool.true_and, Bool.true_and, Bool.and_comm]

/-- The top two bits of word 5 are the checksum bits the layout names (R230). -/
theorem finalize_msbs (hw : L.eightWords = true) (hm : L.mirrors = true) :
    let V := finalize L W odd slot seq dealloc x
    V.w5.extractLsb' 62 1 = x.extractLsb' L.msb0 1 ∧ V.w5.extractLsb' 63 1 = x.extractLsb' L.msb1 1 := by
  obtain ⟨m0, m1⟩ := finalize_bit_msb W odd slot seq dealloc x hw hm
  exact ⟨CmdWord.extractLsb'_of_bit m0, CmdWord.extractLsb'_of_bit m1⟩

/-! ### The other bits -/

/-- Outside words 3-5 a bit in no stamped field is the operand's. -/
theorem finalize_bit_outside (hw : L.eightWords = true) {j k : Nat} (hj : j < 3 ∨ 6 ≤ j)
    (hn : inFields ([L.slot, L.seq, L.deallocV, L.deallocId] ++ L.xsumFields ++ L.polarityFields) j k = false) :
    (finalize L W odd slot seq dealloc x).bit j k = W.bit j k := by
  rw [inFields_eq_false_iff, List.forall_mem_append, List.forall_mem_append] at hn
  obtain ⟨⟨hstamp, hx⟩, hpol⟩ := hn
  have hp := Layout.not_mem_polarity hpol
  rw [finalize_bit_of_plain _ _ _ _ _ _ hw hp (by omega) hx, mirrorWords_bit_of_outside _ hj]
  refine stampHeader_bit_of_not_holds hw _ _ _ _ fun f hf => hstamp f ?_
  simp only [Layout.stampedHeader, List.mem_cons] at hf ⊢
  tauto

/-- Without duplication a bit of words 3-5 that is neither polarity nor MSB is the operand's: (L2) keeps the checksum
fields out of these words, and no header field stands there. -/
theorem finalize_bit_aux (hw : L.eightWords = true) (hm : L.mirrors = true) (hh : L.headerApart = true)
    (hu : L.unambiguous = true) (hd : W.getField L.dupChk ≠ 1) {j k : Nat} (h3 : 3 ≤ j) (h6 : j < 6) (hk : k < 64)
    (hn : inFields (L.polarityFields ++ msbFields) j k = false) :
    (finalize L W odd slot seq dealloc x).bit j k = W.bit j k := by
  rw [inFields_eq_false_iff, List.forall_mem_append] at hn
  obtain ⟨hpol, hmsb⟩ := hn
  have hp := Layout.not_mem_polarity hpol
  have hm5 : j = 5 → k < 62 := by
    simp only [msbFields, List.forall_mem_cons, Field.holds] at hmsb
    omega
  obtain ⟨i, rfl⟩ : ∃ i, j = i + 3 := ⟨j - 3, by omega⟩
  obtain ⟨hpi, hx⟩ := L.mirrors_position hm (j := i) (by omega) hk (by omega)
  have hd' : (stampHeader L W slot seq dealloc).getField L.dupChk ≠ 1 := by
    rwa [getField_dupChk_stampHeader W slot seq dealloc hw hh]
  rw [finalize_bit_of_plain _ _ _ _ _ _ hw hp hm5 fun f hf => (hx (hpi.not.2 hp) f hf).2, mirrorWords_of_ne hd']
  refine stampHeader_bit_of_not_holds hw _ _ _ _ fun f hf hfh => ?_
  have hout := L.protected_outside hu (List.mem_append_left _ (Layout.stampedHeader_subset hf))
  obtain ⟨hword, -, -⟩ := hfh
  omega

end

/-! ### The reference layout -/

section
variable (W : CmdWord) (odd : BitVec 1) (slot : Byte) (seq : BitVec 32) (dealloc : Option (BitVec 5)) (x : BitVec 128)

theorem reference_admissible : Layout.reference.admissible = true := by decide +kernel

theorem reference_unambiguous : Layout.reference.unambiguous = true := by decide +kernel

theorem reference_holdsOperands : Layout.reference.holdsOperands = true := by decide +kernel

/-- The stamped header fields at their places in word 0 (R226-R228). -/
theorem finalize_reference_header :
    let V := finalize Layout.reference W odd slot seq dealloc x
    V.w0.extractLsb' 8 8 = slot ∧ V.w0.extractLsb' 16 32 = seq
      ∧ V.w0.extractLsb' 57 1 = BitVec.ofBool dealloc.isSome ∧ V.w0.extractLsb' 58 5 = dealloc.getD 0 := by
  obtain ⟨hslot, hseq, hv, hid⟩ := finalize_header_fields W odd slot seq dealloc x reference_admissible reference_unambiguous
    reference_holdsOperands
  exact ⟨CmdWord.extractLsb'_of_getField (by decide) hslot, CmdWord.extractLsb'_of_getField (by decide) hseq,
    CmdWord.extractLsb'_of_getField (by decide) hv, CmdWord.extractLsb'_of_getField (by decide) hid⟩

/-- Words 6 and 7 are the halves of the checksum (R230). -/
theorem finalize_reference_xsum :
    let V := finalize Layout.reference W odd slot seq dealloc x
    V.w6 = x.extractLsb' 0 64 ∧ V.w7 = x.extractLsb' 64 64 := by
  obtain ⟨-, -, -, -, -, -, h6, h7⟩ := finalize_bits W odd slot seq dealloc x 0
  exact ⟨h6, h7⟩

/-- Bits of words 0-2, 6 and 7 in no stamped field. -/
theorem finalize_reference_outside {j lo n : Nat} (hj : j < 3 ∨ 6 ≤ j)
    (hn : ∀ i, i < n → inFields ([Layout.reference.slot, Layout.reference.seq, Layout.reference.deallocV,
      Layout.reference.deallocId] ++ Layout.reference.xsumFields ++ Layout.reference.polarityFields) j (lo + i) = false) :
    ((finalize Layout.reference W odd slot seq dealloc x).get j).extractLsb' lo n = (W.get j).extractLsb' lo n := by
  obtain ⟨hw, -⟩ := Layout.admissible_iff.1 reference_admissible
  exact CmdWord.extractLsb'_congr fun i hi => finalize_bit_outside W odd slot seq dealloc x hw hj (hn i hi)

/-- Bits of words 3-5 that are neither polarity nor MSB, without duplication. -/
theorem finalize_reference_aux (hd : W.w0.extractLsb' 51 1 = 0) {j lo n : Nat} (hj : 3 ≤ j ∧ j < 6 ∧ lo + n ≤ 64)
    (hn : ∀ i, i < n → inFields (Layout.reference.polarityFields ++ msbFields) j (lo + i) = false) :
    ((finalize Layout.reference W odd slot seq dealloc x).get j).extractLsb' lo n = (W.get j).extractLsb' lo n := by
  obtain ⟨hw, hm, -, -, -, hh⟩ := Layout.admissible_iff.1 reference_admissible
  obtain ⟨h3, h6, hlo⟩ := hj
  have hd' : W.getField Layout.reference.dupChk ≠ 1 := fun e => by
    have h1 : W.w0.extractLsb' 51 1 = 1 := CmdWord.extractLsb'_of_getField (V := W) (j := 0) (by decide) e
    exact absurd (hd.symm.trans h1) (by decide)
  exact CmdWord.extractLsb'_congr fun i hi =>
    finalize_bit_aux W odd slot seq dealloc x hw hm hh reference_unambiguous hd' h3 h6 (by omega) (hn i hi)

end

/-- Settles O27: from the stamped fields, the bits finalize keeps, and the two read at the reference layout. -/
theorem finalizeStampsTheWord : Obligations.FinalizeStampsTheWord := by
  intro s W odd slot seq dealloc x
  refine ⟨finalize s.params.layout W odd slot seq dealloc x, rfl, ?_, ?_⟩ <;> generalize s.params.layout = L
  · intro ha hu ho
    obtain ⟨hw, hm, -, -, -, hh⟩ := Layout.admissible_iff.1 ha
    obtain ⟨hslot, hseq, hv, hid⟩ := finalize_header_fields W odd slot seq dealloc x ha hu ho
    obtain ⟨hlo, hhi⟩ := finalize_xsum_fields W odd slot seq dealloc x hw hu
    obtain ⟨hm0, hm1⟩ := finalize_msbs W odd slot seq dealloc x hw hm
    refine ⟨hslot, hseq, ?some, ?none, hlo, hhi, hm0, hm1, fun p => finalize_polarity W odd slot seq dealloc x hw,
      fun j k hj _ => finalize_bit_outside W odd slot seq dealloc x hw hj,
      fun hd j k => finalize_bit_aux W odd slot seq dealloc x hw hm hh hu hd⟩
    case some => rintro d rfl; exact ⟨hv, hid⟩
    case none => rintro rfl; exact ⟨hv, hid⟩
  · rintro rfl
    obtain ⟨hw, hm, -⟩ := Layout.admissible_iff.1 reference_admissible
    obtain ⟨hslot, hseq, hv, hid⟩ := finalize_reference_header W odd slot seq dealloc x
    obtain ⟨h6, h7⟩ := finalize_reference_xsum W odd slot seq dealloc x
    obtain ⟨hm0, hm1⟩ := finalize_msbs W odd slot seq dealloc x hw hm
    have outside {j lo n : Nat} := finalize_reference_outside W odd slot seq dealloc x (j := j) (lo := lo) (n := n)
    refine ⟨hslot, hseq, ?some, ?none, h6, h7, hm0, hm1, fun j hj => ?polarity,
      outside (j := 0) (by decide) (by decide), outside (j := 0) (by decide) (by decide), outside (j := 0) (by decide) (by decide),
      outside (j := 1) (by decide) (by decide), outside (j := 1) (by decide) (by decide),
      outside (j := 2) (by decide) (by decide), outside (j := 2) (by decide) (by decide), fun hd => ?aux⟩
    case some => rintro d rfl; exact ⟨hv, hid⟩
    case none => rintro rfl; exact ⟨hv, hid⟩
    case polarity =>
      have hp : (j, 56) ∈ Layout.reference.polarity := by interval_cases j <;> decide
      exact finalize_polarity W odd slot seq dealloc x hw hp
    case aux =>
      have aux {j lo n : Nat} := finalize_reference_aux W odd slot seq dealloc x hd (j := j) (lo := lo) (n := n)
      exact ⟨aux (j := 3) (by decide) (by decide), aux (j := 3) (by decide) (by decide),
        aux (j := 4) (by decide) (by decide), aux (j := 4) (by decide) (by decide),
        aux (j := 5) (by decide) (by decide), aux (j := 5) (by decide) (by decide)⟩

end Sys2Proof.Machine
end

section
/-! BUILD, ISSUE and STATUS_REFRESH (41_token_pool.md R245-R256, R270).  An allowed launch is brought
once into the statements' own form, `State.inFlight`.  What an operation writes before its launch, the time and fields of
the token, it writes over: so ISSUE launches from the state it was given, with the operands bound to the token. -/

namespace Sys2Proof.Machine

open Sys2Proof

/-! ### Binding a request -/

section
variable {s : State} {i : Nat}

/-- A buddy is good when it is another slot of the table (R245). -/
theorem State.badBuddy_eq_false_iff {req : BuildReq} :
    s.badBuddy i req = false ↔ ∀ b, req.buddy = some b → b < s.numSlots ∧ b ≠ i := by
  cases h : req.buddy <;> simp [State.badBuddy, h]

/-- BUILD of a token it accepts binds what the encoder builds, and passes its rejection on (R245, R246). -/
theorem State.opBuild_eq (s : State) {req : BuildReq} (hi : i < s.numSlots)
    (hst : (s.tokAt i).st = .allocated ∨ (s.tokAt i).st = .built) (hb : s.badBuddy i req = false) :
    s.opBuild i req = (buildWord s.params.layout s.params.cfg req).map fun W =>
      s.modTok i fun t => { t.bind s.params.layout req W with st := .built } := by
  have hst' : ¬ ((s.tokAt i).st ≠ .allocated ∧ (s.tokAt i).st ≠ .built) := by tauto
  rw [State.opBuild, if_neg (Nat.not_le.2 hi), if_neg hst', hb, if_neg Bool.false_ne_true]
  cases buildWord s.params.layout s.params.cfg req <;> rfl

end

/-- Settles O36: ENC_BUILD and BUILD both follow what the encoder answers. -/
theorem buildBindsTheRequest : Obligations.BuildBindsTheRequest := by
  intro s i req hi hst hb
  have hencode : exec (.encBuild req) s = _ := execEncBuild_eq s req
  have hbuild : exec (.build i req) s = s.answer ((buildWord s.params.layout s.params.cfg req).map _) :=
    congrArg s.answer (s.begin.opBuild_eq hi hst (State.badBuddy_eq_false_iff.2 hb))
  refine ⟨fun W hW => ?built, fun e he => ?rejected⟩
  case built =>
    rw [hW] at hbuild hencode
    exact ⟨hencode, hbuild, fun o => wordClass_eq⟩
  case rejected =>
    rw [he] at hbuild hencode
    exact ⟨hencode, hbuild⟩

/-! ### Launching -/

section
variable {s : State} {i : Nat}

/-- Two updates of a slot that agree on what it holds are the same update. -/
theorem State.slots_modify_congr {f g : Slot → Slot} (hi : i < s.numSlots) (h : f (s.slotAt i) = g (s.slotAt i)) :
    s.slots.modify i f = s.slots.modify i g := by
  rw [slots_modify_eq_set _ _ hi f Slot.reset, slots_modify_eq_set _ _ hi g Slot.reset]
  exact congrArg (s.slots.set i) h

/-- The sequence number of a launch does not depend on what else an operation writes into the token (R253). -/
theorem State.assignSeq_modTok {f : Token → Token}
    (hf : ∀ t, (f t).devdir = t.devdir ∧ (f t).buddy = t.buddy ∧ (f t).st = t.st ∧ (f t).hasSeq = t.hasSeq ∧ (f t).seq = t.seq) :
    (s.modTok i f).assignSeq i = s.assignSeq i := by
  have ht : ∀ j, ((s.modTok i f).tokAt j).devdir = (s.tokAt j).devdir ∧ ((s.modTok i f).tokAt j).buddy = (s.tokAt j).buddy
      ∧ ((s.modTok i f).tokAt j).st = (s.tokAt j).st ∧ ((s.modTok i f).tokAt j).hasSeq = (s.tokAt j).hasSeq
      ∧ ((s.modTok i f).tokAt j).seq = (s.tokAt j).seq := fun j => by
    rw [State.tokAt_modTok]
    split
    · exact hf _
    · exact ⟨rfl, rfl, rfl, rfl, rfl⟩
  simp only [State.assignSeq, State.buddySeq, State.modTok_seqNext, ht]

/-- The token a launch leaves, in the words of the statements (R251, R255). -/
theorem Token.launched_eq_inFlight (t : Token) (c : Cfg) (odd : BitVec 1) (g : SeqGrant) (W : CmdWord) (cache : Option Byte)
    (now : Nat) : t.launched c odd g W cache now = t.inFlight c odd g.has g.seq W cache now := by
  simp only [Token.launched, Token.inFlight, Cfg.tmo_eq]
  rfl

/-- An allowed launch, of the token as it stands, in an operation that has answered nothing yet (R251-R255). -/
theorem State.launch_eq_inFlight {now : Nat} (hi : i < s.numSlots) (hresp : s.resp = Response.empty) (hnow : s.lastNow = now)
    (hpass : s.filterPasses (s.launchWord i) = true) :
    s.launch i now =
      s.inFlight i now (s.tokAt i) (s.assignSeq i).has (s.assignSeq i).seq (s.assignSeq i).fresh (s.launchWord i) := by
  rw [← State.filterAllows_eq] at hpass
  rw [s.launch_allowed i now hpass, State.inFlight, hresp, hnow]
  congr 1
  exact State.slots_modify_congr hi (by rw [Token.launched_eq_inFlight]; rfl)

/-- What the launch writes replaces the token and the time that an operation set before it. -/
theorem State.inFlight_modTok_atTime (s : State) (i now : Nat) (f : Token → Token) (tok : Token) (has : Bool)
    (q : BitVec 32) (fresh : Bool) (W : CmdWord) :
    ((s.atTime now).modTok i f).inFlight i now tok has q fresh W = s.inFlight i now tok has q fresh W := by
  simp only [State.inFlight, State.slotAt_modTok_odd]
  simp [List.modify_modify_eq, Function.comp_def]

/-- The launch writes the 64 bytes of its command slot and no other (R254, 20_memory.md R85). -/
theorem State.wroteSlot_inFlight (s : State) (i now : Nat) (tok : Token) (has : Bool) (q : BitVec 32) (fresh : Bool)
    (W : CmdWord) : s.WroteSlot (s.inFlight i now tok has q fresh W) i W := by
  have hmem : (s.inFlight i now tok has q fresh W).mem = s.mem.writeBytes (s.params.cmdBase + 64 * i) W.bytes := rfl
  refine ⟨fun k hk => ?inside, fun a ha => ?outside⟩
  case inside =>
    rw [hmem, Memory.read_writeBytes, CmdWord.bytes_length, if_pos (by omega), Nat.add_sub_cancel_left]
  case outside =>
    rw [hmem, Memory.read_writeBytes, CmdWord.bytes_length]
    exact if_neg ha

end

/-! ### ISSUE -/

/-- The state ISSUE launches from: the time set and the two operands bound to the token (R250). -/
def State.issuing (s : State) (i : Nat) (dealloc : Option (BitVec 5)) (xsum : BitVec 128) (now : Nat) : State :=
  (s.atTime now).modTok i fun t => { t with dealloc := dealloc, xsum := xsum }

section
variable {s : State} {i : Nat} {dealloc : Option (BitVec 5)} {xsum : BitVec 128} {now : Nat}

/-- ISSUE of a token it accepts is a launch (R250). -/
theorem State.opIssue_eq_launch (s : State) (ha : s.Accepts i now) (hst : (s.tokAt i).st = .built) (hrun : s.run ≠ .dead) :
    s.opIssue i dealloc xsum now = .ok ((s.issuing i dealloc xsum now).launch i now) := by
  obtain ⟨hi, hnow⟩ := ha
  rw [State.opIssue, if_neg (Nat.not_le.2 hi), if_neg (Nat.not_lt.2 hnow), if_neg (not_not.2 hst), if_neg hrun]
  rfl

theorem State.issuing_numSlots : (s.issuing i dealloc xsum now).numSlots = s.numSlots := State.modTok_numSlots _ i _

theorem State.tokAt_issuing (hi : i < s.numSlots) :
    (s.issuing i dealloc xsum now).tokAt i = { s.tokAt i with dealloc := dealloc, xsum := xsum } :=
  State.tokAt_modTok_self _ i _ hi

theorem State.assignSeq_issuing : (s.issuing i dealloc xsum now).assignSeq i = s.assignSeq i :=
  State.assignSeq_modTok fun _ => ⟨rfl, rfl, rfl, rfl, rfl⟩

/-- The word ISSUE writes: the next polarity, the slot, the number of R253 and the operands stamped on the command (R251). -/
theorem State.launchWord_issuing (hi : i < s.numSlots) :
    (s.issuing i dealloc xsum now).launchWord i =
      finalize s.params.layout (s.tokAt i).cmd ((s.slotAt i).odd ^^^ 1) (BitVec.ofNat 8 i) (s.assignSeq i).seq dealloc xsum := by
  have hodd : ((s.issuing i dealloc xsum now).slotAt i).odd = (s.slotAt i).odd := State.slotAt_modTok_odd _ i i _
  rw [State.launchWord, State.nextOdd, State.tokAt_issuing hi, State.assignSeq_issuing, hodd]
  rfl

end

/-- Settles O37: ISSUE is the launch of the token with the operands bound, allowed or denied. -/
theorem issueLaunchesOrIsDenied : Obligations.IssueLaunchesOrIsDenied := by
  intro s i now dealloc x has q fresh ha hst hrun hseq W t
  let u : State := s.begin.issuing i dealloc x now
  have hi : i < s.begin.numSlots := ha.1
  have hexec : exec (.issue i dealloc x now) s = .next (u.launch i now) :=
    congrArg s.answer (s.begin.opIssue_eq_launch ha hst hrun)
  have hg : s.begin.assignSeq i = ⟨has, q, fresh⟩ := s.begin.assignSeq_rule i has q fresh hseq
  have hW : u.launchWord i = W := by rw [State.launchWord_issuing hi, hg]; rfl
  have hfilter : u.filterPasses (u.launchWord i) = s.filterPasses W := by rw [hW]; rfl
  rw [hexec]
  refine ⟨fun hpass => ⟨congrArg _ ?launched, s.wroteSlot_inFlight ..⟩, fun hdeny => congrArg _ ?denied⟩
  case launched =>
    calc u.launch i now
        = u.inFlight i now (u.tokAt i) (u.assignSeq i).has (u.assignSeq i).seq (u.assignSeq i).fresh (u.launchWord i) :=
          State.launch_eq_inFlight (State.issuing_numSlots.symm ▸ hi) rfl rfl (hfilter.trans hpass)
      _ = u.inFlight i now { s.tokAt i with dealloc := dealloc, xsum := x } has q fresh W := by
          rw [hW, State.assignSeq_issuing, hg, State.tokAt_issuing hi]; rfl
      _ = t := s.begin.inFlight_modTok_atTime ..
  case denied =>
    rw [u.launch_denied i now ((State.filterAllows_eq ..).trans (hfilter.trans hdeny))]
    simp only [u, State.issuing, State.modTok_slots, List.modify_modify_eq]
    rfl

/-! ### STATUS_REFRESH -/

section
variable {s : State} {i : Nat}

/-- The general slots are the first ones (10_state.md R33). -/
theorem State.ttype_eq_iff {y : TokenType} : s.ttype i = y ↔ (y = .general ↔ i < s.numSlots - s.params.r) := by
  rw [State.ttype]
  cases y <;> split <;> simp [*]

/-- A slot after a refresh of its own type or of the other (R270). -/
theorem State.slotAt_refreshSlots {y : TokenType} (hi : i < s.numSlots) :
    (s.refreshSlots y).slotAt i =
      { s.slotAt i with cache := if s.ttype i = y then some (s.readStatus i) else (s.slotAt i).cache } := by
  have hi' : i < s.slots.length := hi
  rw [State.slotAt_eq_getElem _ i (by rwa [← State.numSlots, State.refreshSlots_numSlots]), State.slotAt_eq_getElem s i hi']
  simp only [State.refreshSlots, List.getElem_mapIdx]
  split <;> rfl

/-- The two refresh times after one was set (10_state.md R45). -/
theorem State.setRefreshTime_eq (s : State) (y : TokenType) (now : Nat) :
    s.setRefreshTime y now = { s with
      refreshGeneral := if y = .general then some now else s.refreshGeneral,
      refreshReserved := if y = .reserved then some now else s.refreshReserved } := by
  cases y <;> rfl

/-- STATUS_REFRESH at a time not before the last (R270). -/
theorem exec_statusRefresh_eq {y : TokenType} {now : Nat} (h : s.lastNow ≤ now) :
    exec (.statusRefresh y now) s = .next (((s.begin.atTime now).refreshSlots y).setRefreshTime y now) := by
  have hop : s.begin.opRefresh y now = .ok (((s.begin.atTime now).refreshSlots y).setRefreshTime y now) :=
    if_neg (Nat.not_lt.2 h)
  exact congrArg s.answer hop

end

/-- Settles O42: slot by slot, by what a refresh leaves of each. -/
theorem refreshFillsTheCache : Obligations.RefreshFillsTheCache := by
  refine fun s y now => ⟨fun h => ⟨_, exec_statusRefresh_eq h, ?size, fun i hi => ?slot, ?frame⟩, fun h => ?regression⟩
  case size => rw [State.setRefreshTime_eq]; exact State.refreshSlots_numSlots _ y
  case slot =>
    rw [State.setRefreshTime_eq]
    refine (State.slotAt_refreshSlots (s := s.begin.atTime now) hi).trans ?_
    simp only [State.ttype_eq_iff]
    rfl
  case frame => rw [State.setRefreshTime_eq]; rfl
  case regression =>
    have hop : s.begin.opRefresh y now = .error .timeRegression := if_pos h
    exact congrArg s.answer hop

end Sys2Proof.Machine
end

section
/-! POLL of a status byte that is a change (42_status_decoder.md R280-R292, R300-R303, R310-R317, R340).  Each decode step is
brought into the normal form `State.onSlot`: what it leaves of the slot, the statistics and the events.  A decode that leaves a
terminal result ends the POLL (`State.poll_concludes`); one that leaves the command pending lets it go on (`State.poll_waits`). -/

namespace Sys2Proof.Machine

open Sys2Proof

/-! ### From the decode to the end of the POLL -/

/-- The token is still pending after a POLL at `now` observed the byte `b` (R281, R282). -/
structure Token.Observed (t : Token) (b : Byte) (now : Nat) : Prop where
  st : t.st = .active
  result : t.result = .notComplete
  lastStatus : t.lastStatus = some b
  touchedTime : t.touchedTime = some now

section
variable {s : State} {i now : Nat} {b : Byte} {tok : Token} {ctr : RetryCtr} {st : Stats} {evs : List Event}

/-- The token of a POLL that found the byte `b` fresh (R282, R285). -/
theorem Token.seen_observed {t : Token} (hst : t.st = .active) (hr : t.result = .notComplete) :
    (t.seen b now).Observed b now :=
  ⟨hst, hr, rfl, rfl⟩

theorem State.Fresh.lt (h : s.Fresh i now b) : i < s.numSlots := h.1.1

theorem State.FreshCode.lt {c : StatusCode} (h : s.FreshCode i now b c) : i < s.numSlots := h.1.lt

/-- POLL of an active token: the status byte, then the rest (R280). -/
theorem State.poll_eq_pollRest (ha : s.Accepts i now) (hp : s.Polling i) :
    exec (.poll i now) s = .next (((s.begin.atTime now).pollStatus i now).pollRest i now) := by
  obtain ⟨hi, hnow⟩ : i < s.begin.numSlots ∧ s.begin.lastNow ≤ now := ha
  have hdone : (s.begin.tokAt i).st ≠ .done := by simp [hp.1]
  have hactive : ¬ (s.begin.tokAt i).st ≠ .active := not_not.2 hp.1
  have hop : s.begin.opPoll i now = .ok ((s.begin.atTime now).pollActive i now) := by
    rw [State.opPoll, if_neg (Nat.not_le.2 hi), if_neg (Nat.not_lt.2 hnow), if_neg hdone, if_neg hactive]
  exact congrArg s.answer hop

/-- Recording a changed byte, stale or fresh (R282). -/
theorem State.observe_begin (hi : i < s.numSlots) :
    (s.begin.atTime now).observe i b now = ({ s with lastNow := now } : State).onSlot i { s.slotAt i with
      tok := { s.tokAt i with lastStatus := some b, extCache := none, touchedTime := some now } } s.stats.changed
      [.statusChanged i b] := by
  rw [State.onSlot_start s i hi, State.onSlot_atTime]
  simp only [State.observe, State.onSlot_modTok, State.onSlot_count, State.onSlot_emit]
  rfl

/-- POLL of a stale byte: it is recorded, and only the rest follows (R282, R284). -/
theorem State.poll_stale (ha : s.Accepts i now) (hp : s.Polling i) (hc : s.Changed i b)
    (hstale : s.params.layout.stPolarity b ≠ (s.tokAt i).odd) :
    exec (.poll i now) s = .next ((({ s with lastNow := now } : State).onSlot i { s.slotAt i with
      tok := { s.tokAt i with lastStatus := some b, extCache := none, touchedTime := some now } } s.stats.changed
      [.statusChanged i b]).pollRest i now) := by
  have hi : i < ({ s with lastNow := now } : State).numSlots := ha.1
  have hchanged : (s.begin.atTime now).changedStatus i = some b := by simp [State.changedStatus, hc.1, hc.2]
  rw [State.poll_eq_pollRest ha hp]
  simp only [State.pollStatus, hchanged, State.observe_begin ha.1]
  rw [State.onSlot_tokAt _ i _ _ _ hi, State.onSlot_params, if_neg hstale]

/-- A POLL whose steps up to the decode leave the token pending goes on, and waits while no deadline has passed: it was
touched in this POLL, so it does not look lost (R280, R281, R362). -/
theorem State.waits_of_rest (ha : s.Accepts i now) (hc : s.Changed i b) (ho : tok.Observed b now)
    (h : exec (.poll i now) s =
      .next ((({ s with lastNow := now } : State).onSlot i { s.slotAt i with tok := tok } st evs).pollRest i now)) :
    s.Waits i now tok st evs := by
  let u : State := (s.modTok i fun _ => tok).count fun _ => st
  have htok : u.tokAt i = tok := State.tokAt_modTok_self s i (fun _ => tok) ha.1
  have hslot : u.slotAt i = { s.slotAt i with tok := tok } :=
    (State.slotAt_modTok s i i fun _ => tok).trans (if_pos ⟨rfl, ha.1⟩)
  have hstart : (({ u with lastNow := now } : State).onSlot i (u.slotAt i) u.stats []).withEvents evs
      = ({ s with lastNow := now } : State).onSlot i { s.slotAt i with tok := tok } st evs := by
    rw [hslot]
    simp only [u, State.onSlot, State.withEvents, State.count_slots, State.modTok_slots, List.append_nil]
    rw [slots_modify_eq_set _ _ ha.1 _ Slot.reset, List.set_set]
    rfl
  refine ⟨State.pollGoesOn_of_rest s i evs u now ⟨?size, ha.2⟩ ?polling (.inr ?unchanged) (hstart ▸ h), fun hd => ?wait⟩
  case size => exact ha.1.trans_eq (State.modTok_numSlots s i fun _ => tok).symm
  case polling => exact ⟨htok ▸ ho.st, htok ▸ ho.result⟩
  case unchanged => rw [htok, ho.lastStatus, hslot]; exact hc.1
  case wait =>
    rw [h, State.pollRest_pending s i st evs now tok ha.1 ho.result (.inl (tok.looksLost_touched _ now ho.touchedTime))
      ((tok.elapsed_eq_false now).2 hd)]

/-- A failure code whose decode leaves the token pending. -/
theorem State.poll_waits {c : StatusCode} (h : s.FreshCode i now b c) (ho : tok.Observed b now)
    (hd : (s.freshSlot i now b).decodeCode i b now c
      = ({ s with lastNow := now } : State).onSlot i { s.slotAt i with tok := tok } st evs) :
    s.Waits i now tok st evs := by
  obtain ⟨⟨ha, -, hc, -⟩, -⟩ := id h
  exact State.waits_of_rest ha hc ho (by rw [State.poll_code s i now b c h, hd])

/-- A failure code whose decode gives a terminal result (R281). -/
theorem State.poll_concludes {c : StatusCode} (h : s.FreshCode i now b c) (hr : tok.result ≠ .notComplete)
    (hd : (s.freshSlot i now b).decodeCode i b now c
      = ({ s with lastNow := now } : State).onSlot i (s.slotWith i tok ctr) st evs) :
    exec (.poll i now) s = .next (s.concluded i now tok ctr st evs) := by
  rw [State.poll_code s i now b c h, hd, State.pollRest_concluded s i st evs now tok ctr h.lt hr]

end

/-- Settles O44: a stale byte leaves the token observed and pending. -/
theorem pollStaleIsNotDecoded : Obligations.PollStaleIsNotDecoded := by
  intro s i now b ha hp hc hstale
  exact State.waits_of_rest ha hc ⟨hp.1, hp.2, rfl, rfl⟩ (State.poll_stale ha hp hc hstale)

/-! ### The extended status and the fault subtypes (R283, R314-R317) -/

section
variable {s : State} {i : Nat} {b : Byte} {sl : Slot} {st : Stats} {evs : List Event}

/-- `ext(i)` of a token that has none cached is the device's (R283). -/
theorem State.onSlot_extValue (hi : i < s.numSlots) (hc : sl.tok.extCache = none) :
    (s.onSlot i sl st evs).extValue i = s.readExt i := by
  rw [State.extValue, State.onSlot_tokAt s i sl st evs hi, hc]
  rfl

/-- `ext(i)` caches the value it reads (R283). -/
theorem State.onSlot_extFetched (hi : i < s.numSlots) (hc : sl.tok.extCache = none) :
    (s.onSlot i sl st evs).extFetched i
      = s.onSlot i { sl with tok := { sl.tok with extCache := some (s.readExt i) } } st evs := by
  simp only [State.extFetched, State.onSlot_extValue hi hc, State.onSlot_modTok]

/-- The checksum fault counts in the slot and is retried within the budget (R315, 10_state.md R64). -/
theorem State.onSlot_fcXsum (hi : i < s.numSlots) :
    (s.onSlot i sl st evs).fcXsum i
      = if sl.ctr.xsum < s.params.cfg.maxXsum then
          s.onSlot i { sl with
            tok := { sl.tok with result := .retry, why := some .hwXsum }, ctr := { sl.ctr with xsum := sl.ctr.xsum + 1 } } st evs
        else
          s.onSlot i { sl with
            tok := { sl.tok with result := .abort, why := some .xsumBudget }, ctr := { sl.ctr with xsum := sl.ctr.xsum + 1 } }
            st evs := by
  simp only [State.fcXsum, State.onSlot_modCtr, State.canRetryXsum, State.onSlot_slotAt s i _ st evs hi, State.onSlot_params,
    State.onSlot_setResult, decide_eq_true_eq, Nat.succ_le_iff]

/-- The WEP timeout fault counts in the slot and is retried within the budget (R316, 10_state.md R64). -/
theorem State.onSlot_fcWep (hi : i < s.numSlots) :
    (s.onSlot i sl st evs).fcWep i
      = if sl.ctr.wep < s.params.cfg.maxWep then
          s.onSlot i { sl with
            tok := { sl.tok with result := .retry, why := some .hwWep }, ctr := { sl.ctr with wep := sl.ctr.wep + 1 } } st evs
        else
          s.onSlot i { sl with
            tok := { sl.tok with result := .abort, why := some .wepBudget }, ctr := { sl.ctr with wep := sl.ctr.wep + 1 } }
            st evs := by
  simp only [State.fcWep, State.onSlot_modCtr, State.canRetryWep, State.onSlot_slotAt s i _ st evs hi, State.onSlot_params,
    State.onSlot_setResult, decide_eq_true_eq, Nat.succ_le_iff]

end

/-- The handling of each fault subtype an extended status names (R314-R319). -/
def State.decodeFault (s : State) (i : Nat) : Option FaultCode → State
  | some .fatal => s.abortHard i .fatalFw
  | some .xsum => s.fcXsum i
  | some .wepTimeout => s.fcWep i
  | some .ecc => s.setResult i .retry .hwEcc
  | some .cmdOffset => s.setResult i .retry .hwCmdOffset
  | some .unknownCmd => s.unknownHw i
  | none => s.unknownFc i

/-- The state in which a fault subtype is handled: the command counted as illegal, its extended status kept (R283, R314). -/
def State.faultSlot (s : State) (i now : Nat) (b : Byte) : State :=
  ({ s with lastNow := now } : State).onSlot i
    { s.slotAt i with tok := { (s.tokAt i).seen b now with extCache := some (s.readExt i) } }
    { s.stats.changed with illegal := s.stats.illegal + 1 } [.statusChanged i b]

section
variable {s : State} {i now : Nat} {b : Byte}

/-- ILLEGAL_CMD with EXT: counted, the extended status fetched, and the fault subtype it names handled (R314). -/
theorem State.decIllegal_ext {u c : State} (hc : c = u.count fun k => { k with illegal := k.illegal + 1 })
    (hext : c.params.layout.stExtend b = true) :
    u.decIllegal i b = (c.extFetched i).decodeFault i (c.params.layout.faultOf (extFault (c.extValue i))) := by
  rw [State.decIllegal, ← hc]
  refine (if_neg (ne_false_of_eq_true hext)).trans ?_
  cases c.params.layout.faultOf (extFault (c.extValue i)) with
  | none => rfl
  | some f => cases f <;> rfl

/-- In a POLL of a fresh byte the extended status is the device's, read afresh and kept (R283). -/
theorem State.freshSlot_decIllegal (hi : i < s.numSlots) (hext : s.params.layout.stExtend b = true) :
    (s.freshSlot i now b).decIllegal i b
      = (s.faultSlot i now b).decodeFault i (s.params.layout.faultOf (extFault (s.readExt i))) := by
  have hi' : i < ({ s with lastNow := now } : State).numSlots := hi
  rw [State.decIllegal_ext (u := s.freshSlot i now b) rfl hext, State.freshSlot, State.onSlot_count,
    State.onSlot_extValue hi' rfl, State.onSlot_extFetched hi' rfl]
  rfl

/-- A fault subtype whose handling gives a terminal result ends the POLL (R281, R314). -/
theorem State.poll_fault_concludes {fc : Option FaultCode} {tok : Token} {ctr : RetryCtr} (h : s.FreshCode i now b .illegalCmd)
    (hext : s.params.layout.stExtend b = true) (hfc : s.params.layout.faultOf (extFault (s.readExt i)) = fc)
    (hr : tok.result ≠ .notComplete)
    (hd : (s.faultSlot i now b).decodeFault i fc = ({ s with lastNow := now } : State).onSlot i (s.slotWith i tok ctr)
      { s.stats.changed with illegal := s.stats.illegal + 1 } [.statusChanged i b]) :
    exec (.poll i now) s = .next (s.concluded i now tok ctr { s.stats.changed with illegal := s.stats.illegal + 1 }
      [.statusChanged i b]) :=
  State.poll_concludes h hr ((State.freshSlot_decIllegal h.lt hext).trans (hfc ▸ hd))

end

/-- Settles O50: each subtype by its handling, the counted ones split at the budget. -/
theorem pollRetryableFault : Obligations.PollRetryableFault := by
  intro s i now b h hext v t c fc ends
  have hi : i < ({ s with lastNow := now } : State).numSlots := h.lt
  refine ⟨fun hfc hlt => ?xsumRetry, fun hfc hle => ?xsumAbort, fun hfc hlt => ?wepRetry, fun hfc hle => ?wepAbort,
    fun hfc => ?ecc, fun hfc => ?cmdOffset⟩ <;> refine State.poll_fault_concludes h hext hfc nofun ?_
  case xsumRetry => exact (State.onSlot_fcXsum hi).trans (if_pos hlt)
  case xsumAbort => exact (State.onSlot_fcXsum hi).trans (if_neg (Nat.not_lt.2 hle))
  case wepRetry => exact (State.onSlot_fcWep hi).trans (if_pos hlt)
  case wepAbort => exact (State.onSlot_fcWep hi).trans (if_neg (Nat.not_lt.2 hle))
  case ecc => exact State.onSlot_setResult ..
  case cmdOffset => exact State.onSlot_setResult ..

/-! ### COLLISION, FIELD_ERROR and the reserved codes (R310, R311, R340) -/

section
variable {s : State} {i now : Nat} {b : Byte}

/-- The decode of a reserved code gives ABORT and sets `unspec_seen` (R340). -/
theorem State.freshSlot_decReserved :
    (s.freshSlot i now b).decReserved i = ({ s with lastNow := now, unspecSeen := true } : State).onSlot i
      (s.slotWith i { (s.tokAt i).seen b now with result := .abort, why := some .unspecCode } (s.slotAt i).ctr)
      s.stats.changed [.statusChanged i b] := by
  rw [State.decReserved, State.freshSlot, State.onSlot_setResult]
  rfl

/-- A fresh reserved code ends the POLL with ABORT (R340, R281). -/
theorem State.poll_reserved_concludes (h : s.Fresh i now b) (hs : s.params.layout.stSuccess b = false)
    (hc : s.params.layout.statusOf (s.params.layout.stCode b) = none) :
    exec (.poll i now) s = .next { s.concluded i now { (s.tokAt i).seen b now with result := .abort, why := some .unspecCode }
      (s.slotAt i).ctr s.stats.changed [.statusChanged i b] with unspecSeen := true } := by
  rw [State.poll_reserved s i now b h hs hc, State.freshSlot_decReserved]
  exact congrArg _ (State.pollRest_concluded { s with unspecSeen := true } i _ _ now _ _ h.lt nofun)

/-- Clearing the transfer flag of an early-committed write, as a change of that flag (R311). -/
theorem Token.xferCleared_eq (t : Token) :
    (if t.cls = .write ∧ t.earlyCommitted = true then { t with xferFromHost := false } else t)
      = { t with xferFromHost := if t.cls = .write ∧ t.earlyCommitted = true then false else t.xferFromHost } := by
  split <;> rfl

/-- The decode of FIELD_ERROR: counted, RETRY, the transfer flag cleared for an early-committed write (R311). -/
theorem State.freshSlot_decFieldError :
    (s.freshSlot i now b).decFieldError i = ({ s with lastNow := now } : State).onSlot i
      (s.slotWith i
        { (s.tokAt i).seen b now with
          result := .retry, why := some .field,
          xferFromHost :=
            if (s.tokAt i).cls = .write ∧ (s.tokAt i).earlyCommitted = true then false else (s.tokAt i).xferFromHost }
        (s.slotAt i).ctr)
      { s.stats.changed with field := s.stats.field + 1 } [.statusChanged i b] := by
  rw [State.decFieldError, State.freshSlot, State.onSlot_count, State.onSlot_modTok, Token.xferCleared_eq, State.onSlot_setResult]
  rfl

end

/-- Settles O47: each code by what its decode leaves. -/
theorem pollCollisionFieldAndReserved : Obligations.PollCollisionFieldAndReserved := by
  intro s i now b
  refine ⟨fun h => ?collision, fun h => ?field, State.poll_reserved_concludes⟩
  case collision =>
    refine State.poll_concludes h nofun ?_
    rw [State.decodeCode, State.decCollision, State.freshSlot, State.onSlot_count, State.onSlot_setResult]
  case field => exact State.poll_concludes h nofun State.freshSlot_decFieldError

/-! ### Success (R290-R292) -/

section
variable {s : State} {i now : Nat} {b : Byte} {sl : Slot} {st : Stats} {evs : List Event}

/-- A read with the configuration on records its completion buffer (R290). -/
theorem State.onSlot_successBuffers_rdbuf (hi : i < s.numSlots) (hcls : sl.tok.cls = .read)
    (hcfg : s.params.cfg.rdbufFromStatus = true) :
    (s.onSlot i sl st evs).successBuffers i b
      = s.onSlot i { sl with tok := { sl.tok with rdbuf := some (s.params.layout.stCode b) } } st
          (evs ++ [.rdBufDone i (s.params.layout.stCode b)]) := by
  rw [State.successBuffers, State.onSlot_tokAt s i sl st evs hi, if_pos hcls, State.onSlot_params, if_pos hcfg,
    State.onSlot_modTok, State.onSlot_emit]

/-- A read with the configuration off records nothing (R290). -/
theorem State.onSlot_successBuffers_off (hi : i < s.numSlots) (hcls : sl.tok.cls = .read)
    (hcfg : s.params.cfg.rdbufFromStatus = false) :
    (s.onSlot i sl st evs).successBuffers i b = s.onSlot i sl st evs := by
  rw [State.successBuffers, State.onSlot_tokAt s i sl st evs hi, if_pos hcls, State.onSlot_params,
    if_neg (ne_true_of_eq_false hcfg)]

/-- The other classes free their write buffers (R290, R291). -/
theorem State.onSlot_successBuffers_wbufs (hi : i < s.numSlots) (hcls : sl.tok.cls ≠ .read) :
    (s.onSlot i sl st evs).successBuffers i b = s.onSlot i { sl with tok := sl.tok.freed } st (evs ++ sl.tok.freeEvents i) := by
  rw [State.successBuffers, State.onSlot_tokAt s i sl st evs hi, if_neg hcls, State.onSlot_freeWbufs s i sl st evs hi]

/-- `warn_ext(i)`: the extended status kept, the warning counted and logged (R292). -/
theorem State.onSlot_warnExt (hi : i < s.numSlots) (hc : sl.tok.extCache = none) :
    (s.onSlot i sl st evs).warnExt i
      = s.onSlot i { sl with tok := { sl.tok with extCache := some (s.readExt i) } } { st with warning := st.warning + 1 }
          (evs ++ [.log .warn i .devWarning (some (s.readExt i))]) := by
  rw [State.warnExt, State.onSlot_extValue hi hc, State.onSlot_extFetched hi hc, State.onSlot_count, State.onSlot_emit]

/-- What a success leaves, by what its buffer step leaves: the warning when EXT is set, and OK (R290, R292). -/
theorem State.success_of_buffers (hi : i < s.numSlots) (hc : sl.tok.extCache = none) {u : State}
    (hu : u.successBuffers i b = s.onSlot i sl st evs) :
    u.success i b
      = s.onSlot i { sl with tok := { sl.tok.withExt s.params.layout b (s.readExt i) with result := .ok } }
          (if s.params.layout.stExtend b = true then { st with warning := st.warning + 1 } else st)
          (evs ++ if s.params.layout.stExtend b = true then [.log .warn i .devWarning (some (s.readExt i))] else []) := by
  simp only [State.success, hu, State.onSlot_params, Token.withExt]
  by_cases hext : s.params.layout.stExtend b = true
  · simp only [if_pos hext, State.onSlot_warnExt hi hc, State.onSlot_modTok]
  · simp only [if_neg hext, List.append_nil, State.onSlot_modTok]

/-- A fresh success byte ends the POLL with OK, by what its buffer step leaves (R290, R281). -/
theorem State.poll_success_concludes {tok : Token} (h : s.Fresh i now b) (hs : s.params.layout.stSuccess b = true)
    (hc : tok.extCache = none)
    (hu : (s.freshSlot i now b).successBuffers i b
      = ({ s with lastNow := now } : State).onSlot i { s.slotAt i with tok := tok } s.stats.changed (.statusChanged i b :: evs)) :
    exec (.poll i now) s = .next (s.concluded i now { tok.withExt s.params.layout b (s.readExt i) with result := .ok }
      (s.slotAt i).ctr
      (if s.params.layout.stExtend b = true then { s.stats.changed with warning := s.stats.warning + 1 } else s.stats.changed)
      (.statusChanged i b :: evs
        ++ if s.params.layout.stExtend b = true then [.log .warn i .devWarning (some (s.readExt i))] else [])) := by
  have hi : i < ({ s with lastNow := now } : State).numSlots := h.lt
  rw [State.poll_success s i now b h hs, State.success_of_buffers hi hc hu]
  exact congrArg _ (State.pollRest_concluded s i _ _ now _ _ h.lt nofun)

end

section
variable (t : Token) (L : Layout) (b : Byte) (v : Word)

@[simp] theorem Token.withExt_cls : (t.withExt L b v).cls = t.cls := by
  rw [Token.withExt]; split <;> rfl

/-- The extended status and the completion buffer are fields apart. -/
theorem Token.withExt_rdbuf (r : Option (BitVec 5)) :
    { t with rdbuf := r }.withExt L b v = { t.withExt L b v with rdbuf := r } := by
  simp only [Token.withExt]; split <;> rfl

/-- The extended status and the write buffers are fields apart. -/
theorem Token.withExt_freed : t.freed.withExt L b v = (t.withExt L b v).freed := by
  simp only [Token.withExt]; split <;> rfl

theorem Token.withExt_freeEvents (i : Nat) : (t.withExt L b v).freeEvents i = t.freeEvents i := by
  rw [Token.withExt]; split <;> rfl

end

/-- Settles O45: the three ways the buffer step can go. -/
theorem pollSuccess : Obligations.PollSuccess := by
  intro s i now b h hs v t stats warn ends
  have hi : i < ({ s with lastNow := now } : State).numSlots := h.lt
  have hcls : t.cls = (s.tokAt i).cls := Token.withExt_cls ..
  refine ⟨fun hpath hcfg => ?rdbuf, fun hpath hcfg => ?off, fun hpath => ?wbufs⟩ <;> rw [hcls] at hpath
  case rdbuf =>
    have e := State.poll_success_concludes h hs rfl (State.onSlot_successBuffers_rdbuf hi hpath hcfg)
    rwa [Token.withExt_rdbuf] at e
  case off => exact State.poll_success_concludes h hs rfl (State.onSlot_successBuffers_off hi hpath hcfg)
  case wbufs =>
    have e := State.poll_success_concludes h hs rfl (State.onSlot_successBuffers_wbufs hi hpath)
    have hev : t.freeEvents i = _ := Token.withExt_freeEvents ((s.tokAt i).seen b now) s.params.layout b v i
    rw [Token.withExt_freed] at e
    rwa [hev]

/-! ### Progress (R300-R303) -/

section
variable {s : State} {i now : Nat} {b : Byte} {sl : Slot} {st : Stats} {evs : List Event} {c : StatusCode}

/-- Early commit fires once, at the configured stage or a later one (R302). -/
theorem State.onSlot_earlyCommit (hi : i < s.numSlots) :
    (s.onSlot i sl st evs).earlyCommit i
      = if s.params.cfg.commitStage.reached sl.tok.stage = true ∧ sl.tok.earlyCommitted = false then
          s.onSlot i { sl with tok := { sl.tok with earlyCommitted := true, hostLive := false } } st
            (evs ++ [.earlyCommit i sl.tok.reqTag])
        else s.onSlot i sl st evs := by
  simp only [State.earlyCommit, State.onSlot_tokAt s i sl st evs hi, State.onSlot_params, State.onSlot_modTok, State.onSlot_emit]

/-- The token with a progress stage reported at `now` (R300, R301). -/
def Token.progressed (t : Token) (cfg : Cfg) (g : Stage) (now : Nat) : Token :=
  { t with stage := g, armedTime := now, tmoDur := (cfg.timeouts t.cls).entry g }

/-- SEQUENCED on the control path does nothing (R303). -/
theorem State.onSlot_progress_ignored (hi : i < s.numSlots) (hc : sl.tok.cls = .control) :
    (s.onSlot i sl st evs).progress i .sequenced now = s.onSlot i sl st evs := by
  rw [State.progress, State.onSlot_tokAt s i sl st evs hi, if_pos ⟨hc, rfl⟩]

/-- Off the write path a progress code re-arms its stage (R300, R301). -/
theorem State.onSlot_progress_armed (hi : i < s.numSlots) (hc : ¬ (sl.tok.cls = .control ∧ c = .sequenced))
    (hw : sl.tok.cls ≠ .write) :
    (s.onSlot i sl st evs).progress i c now
      = s.onSlot i { sl with tok := sl.tok.progressed s.params.cfg (progressStage c) now } st evs := by
  rw [State.progress, State.onSlot_tokAt s i sl st evs hi, if_neg hc]
  simp only [State.onSlot_modTok, State.onSlot_params, Cfg.tmo_eq]
  rw [State.onSlot_tokAt s i _ st evs hi]
  exact if_neg hw

/-- On the write path it also frees the write buffers and may commit early (R302). -/
theorem State.onSlot_progress_write (hi : i < s.numSlots) (hw : sl.tok.cls = .write) :
    (s.onSlot i sl st evs).progress i c now
      = (s.onSlot i { sl with tok := (sl.tok.progressed s.params.cfg (progressStage c) now).freed } st
          (evs ++ sl.tok.freeEvents i)).earlyCommit i := by
  rw [State.progress, State.onSlot_tokAt s i sl st evs hi, if_neg (by simp [hw])]
  simp only [State.onSlot_modTok, State.onSlot_params, Cfg.tmo_eq]
  rw [State.onSlot_tokAt s i _ st evs hi, if_pos (by exact hw), State.onSlot_freeWbufs s i _ st evs hi]
  rfl

/-- The four progress codes with the stages they name (R300, R301). -/
theorem decodeCode_progress {p : StatusCode × Stage}
    (hp : p ∈ [(StatusCode.queued, Stage.queued), (.received, .received), (.pending, .waitDev), (.sequenced, .waitDev)]) :
    p.2 = progressStage p.1 ∧ p.2 ≠ .issued ∧ s.decodeCode i b now p.1 = s.progress i p.1 now := by
  fin_cases hp <;> exact ⟨rfl, nofun, rfl⟩

end

/-- Settles O46: by class and code, what the decode leaves is a token still pending. -/
theorem pollProgress : Obligations.PollProgress := by
  intro s i now b p hp h c seen t commits waits
  have hi : i < ({ s with lastNow := now } : State).numSlots := h.lt
  obtain ⟨⟨-, ⟨hst, hr⟩, -⟩, -⟩ := id h
  have hseen : seen.Observed b now := Token.seen_observed hst hr
  obtain ⟨hstage, hissued, hdecode⟩ := decodeCode_progress (s := s.freshSlot i now b) (i := i) (b := b) (now := now) hp
  have ht : seen.progressed c (progressStage p.1) now = t := by rw [← hstage]; rfl
  have hcommits : (c.commitStage.reached t.freed.stage = true ∧ t.freed.earlyCommitted = false) ↔ commits :=
    (and_congr_left' (c.commitStage.reached_iff p.2 hissued)).trans and_comm
  have hwrite (hcls : t.cls = .write) : (s.freshSlot i now b).progress i p.1 now
      = (({ s with lastNow := now } : State).onSlot i { s.slotAt i with tok := t.freed } s.stats.changed
          (.statusChanged i b :: t.freeEvents i)).earlyCommit i := by
    rw [← ht]
    exact State.onSlot_progress_write hi hcls
  refine ⟨fun hcls hseq => ?ignored, fun hcls => ?armed, fun hcls hn => ?write, fun hcls hy => ?commit⟩
  case ignored =>
    refine State.poll_waits h hseen (hdecode.trans ?_)
    rw [hseq]
    exact State.onSlot_progress_ignored hi hcls
  case armed =>
    have hpath : ¬ (t.cls = .control ∧ p.1 = .sequenced) ∧ t.cls ≠ .write := by
      obtain hread | ⟨hcontrol, hp⟩ := hcls
      · simp [hread]
      · simp [hcontrol, hp]
    refine State.poll_waits h ⟨hseen.st, hseen.result, rfl, rfl⟩ (hdecode.trans ?_)
    rw [← ht]
    exact State.onSlot_progress_armed hi hpath.1 hpath.2
  case write =>
    refine State.poll_waits h ⟨hseen.st, hseen.result, rfl, rfl⟩ (hdecode.trans ?_)
    rw [hwrite hcls, State.onSlot_earlyCommit hi]
    exact if_neg (hcommits.not.2 hn)
  case commit =>
    refine State.poll_waits h ⟨hseen.st, hseen.result, rfl, rfl⟩ (hdecode.trans ?_)
    rw [hwrite hcls, State.onSlot_earlyCommit hi]
    exact if_pos (hcommits.2 hy)

end Sys2Proof.Machine
end

section
/-! Lost commands, deadlines and out-of-order status (43_timeout_ooo.md).  A POLL that finds no new status byte runs only the
steps after the decode, from the state `s.begin.atTime now`.  A lost command is re-written there, and what is left is the POLL
of the re-written state with one event before it; a deadline that has passed is one call of `timeout_handle`, brought case by
case into the normal form `State.onSlot`. -/

namespace Sys2Proof.Machine

open Sys2Proof

/-! ### OOO (R332, R381, R384) -/

section
variable {s : State} {i now : Nat} {b : Byte} {sl : Slot} {st : Stats} {evs : List Event}

/-- Reading the extended status leaves what the POLL observed. -/
theorem Token.Observed.withExt {t : Token} (h : t.Observed b now) (L : Layout) (v : Word) : (t.withExt L b v).Observed b now := by
  rw [Token.withExt]
  split
  · exact ⟨h.st, h.result, h.lastStatus, h.touchedTime⟩
  · exact h

/-- OOO on the control path does nothing (R332). -/
theorem State.onSlot_decOoo_control (hi : i < s.numSlots) (hc : sl.tok.cls = .control) :
    (s.onSlot i sl st evs).decOoo i b now = s.onSlot i sl st evs := by
  rw [State.decOoo, State.onSlot_tokAt s i sl st evs hi, if_pos hc]

/-- OOO on the other paths: counted, the token marked, and with EXT the policy's handling of the extended status (R332). -/
theorem State.onSlot_decOoo (hi : i < s.numSlots) (hc : sl.tok.cls ≠ .control) (hcache : sl.tok.extCache = none) :
    let u := s.onSlot i { sl with tok := { sl.tok.withExt s.params.layout b (s.readExt i) with seenInHw := true } }
      { st with ooo := st.ooo + 1 } evs
    (s.onSlot i sl st evs).decOoo i b now
      = if s.params.layout.stExtend b = true then u.oooHandle i (s.readExt i) now else u := by
  rw [State.decOoo, State.onSlot_tokAt s i sl st evs hi, if_neg hc]
  simp only [State.onSlot_count, State.onSlot_modTok, State.onSlot_params, Token.withExt]
  by_cases hext : s.params.layout.stExtend b = true
  · simp only [if_pos hext]
    rw [State.onSlot_extValue hi, State.onSlot_extFetched hi] <;> exact hcache
  · simp only [if_neg hext]

/-- Policy OFF logs the extended status (R381). -/
theorem State.onSlot_oooHandle_off {v : Word} (hp : s.params.cfg.oooPolicy = .off) :
    (s.onSlot i sl st evs).oooHandle i v now = s.onSlot i sl st (evs ++ [.log .info i .ooo (some v)]) := by
  rw [State.oooHandle, State.onSlot_params, hp, State.onSlot_emit]

/-- Policy DELAYED re-arms the stage timeout and marks the token for replay (R384). -/
theorem State.onSlot_oooHandle_delayed {v : Word} (hi : i < s.numSlots) (hp : s.params.cfg.oooPolicy = .delayed) :
    (s.onSlot i sl st evs).oooHandle i v now
      = s.onSlot i { sl with
          tok := { sl.tok with
            armedTime := now, tmoDur := (s.params.cfg.timeouts sl.tok.cls).entry sl.tok.stage, oooReplay := true } } st evs := by
  rw [State.oooHandle, State.onSlot_params, hp]
  simp only [State.onSlot_modTok, State.stageTmo_eq, State.onSlot_params]
  rw [State.onSlot_tokAt s i sl st evs hi]
  rfl

end

/-- Settles O53: the control path, no EXT, and the two policies that touch no other token. -/
theorem pollOutOfOrder : Obligations.PollOutOfOrder := by
  intro s i now b h seen ext v t waits counted
  have hi : i < ({ s with lastNow := now } : State).numSlots := h.lt
  obtain ⟨⟨-, ⟨hst, hr⟩, -⟩, -⟩ := id h
  have hseen : seen.Observed b now := Token.seen_observed hst hr
  have hext : (seen.withExt s.params.layout b v).Observed b now := hseen.withExt ..
  have ht : t.Observed b now := ⟨hext.st, hext.result, hext.lastStatus, hext.touchedTime⟩
  have hcls : t.cls = seen.cls := Token.withExt_cls ..
  have hdecode (hc : t.cls ≠ .control) : (s.freshSlot i now b).decOoo i b now = _ :=
    State.onSlot_decOoo hi (hcls ▸ hc) rfl
  refine ⟨fun hc => ?control, fun hc hx => ?bare, fun hc hx hp => ?off, fun hc hx hp => ?delayed⟩
  case control => exact State.poll_waits h hseen (State.onSlot_decOoo_control hi (hcls ▸ hc))
  case bare => exact State.poll_waits h ht ((hdecode hc).trans (if_neg (ne_true_of_eq_false hx)))
  case off =>
    exact State.poll_waits h ht ((hdecode hc).trans ((if_pos hx).trans (State.onSlot_oooHandle_off hp)))
  case delayed =>
    exact State.poll_waits h ⟨ht.st, ht.result, ht.lastStatus, ht.touchedTime⟩
      ((hdecode hc).trans ((if_pos hx).trans (State.onSlot_oooHandle_delayed hi hp)))

/-! ### A POLL that finds no new status byte (R280, R282) -/

section
variable {s u : State} {i now : Nat} {evs : List Event}

/-- The state such a POLL starts from, in normal form. -/
theorem State.begin_atTime_eq_onSlot (hi : i < s.numSlots) :
    s.begin.atTime now = ({ s with lastNow := now } : State).onSlot i (s.slotAt i) s.stats [] := by
  rw [State.onSlot_start s i hi, State.onSlot_atTime]
  rfl

/-- Such a POLL runs only the steps after the decode (R280, R282). -/
theorem State.poll_eq_rest_of_unchanged (ha : s.Accepts i now) (hp : s.Polling i) (hu : s.Unchanged i) :
    exec (.poll i now) s = .next ((s.begin.atTime now).pollRest i now) := by
  rw [State.poll_unchanged s i now ha hp hu, State.begin_atTime_eq_onSlot ha.1]

/-- Where no re-write is due the lost-command check changes nothing (R362, R387). -/
theorem State.lostCheck_of_notLost (h : s.NotLost i now) : s.lostCheck i now = s := by
  rw [State.lostCheck, if_neg]
  rintro ⟨hlost, hrun⟩
  obtain hl | hdead := (s.notLost_iff i now).1 h
  · exact absurd (hl.symm.trans hlost) Bool.false_ne_true
  · exact hrun hdead

/-- The rest of a POLL after its lost-command check is the rest of a POLL of the state that check leaves, when no further
re-write is due there (R280). -/
theorem State.pollRest_of_lostCheck (hs : (s.tokAt i).result = .notComplete) (hu : (u.tokAt i).result = .notComplete)
    (hn : u.NotLost i now) (h : s.lostCheck i now = u) : s.pollRest i now = u.pollRest i now := by
  simp only [State.pollRest, State.whilePending, if_pos hs, if_pos hu, h, State.lostCheck_of_notLost hn]

/-- A POLL that finds nothing new, with no re-write due and no deadline passed, answers NOT_COMPLETE and changes nothing else
(R281). -/
theorem State.poll_idle (ha : s.Accepts i now) (hp : s.Polling i) (hu : s.Unchanged i) (hn : s.NotLost i now)
    (hd : now < (s.tokAt i).armedTime + (s.tokAt i).tmoDur) :
    exec (.poll i now) s = .next { s with lastNow := now, resp := Response.ofToken false .notComplete [] } := by
  have helapsed : (s.tokAt i).elapsed now = false := (Token.elapsed_eq_false _ now).2 hd
  have hpending : ((s.begin.atTime now).tokAt i).result = .notComplete := hp.2
  have hlost : (s.begin.atTime now).lostCheck i now = s.begin.atTime now := State.lostCheck_of_notLost hn
  have htimeout : (s.begin.atTime now).timeoutCheck i now = s.begin.atTime now :=
    if_neg (ne_true_of_eq_false helapsed)
  rw [State.poll_eq_rest_of_unchanged ha hp hu]
  simp only [State.pollRest, State.whilePending, if_pos hpending, hlost, htimeout, State.finish]
  rfl

/-- What a POLL that goes on as that of `u` answers. -/
theorem State.PollGoesOn.poll_eq {t : State} (h : s.PollGoesOn u i now evs) (ht : exec (.poll i now) u = .next t) :
    exec (.poll i now) s = .next (t.withEvents evs) := by
  obtain ⟨t', hu, hs⟩ := h
  obtain rfl : t' = t := Host.Outcome.next.inj (hu.symm.trans ht)
  exact hs

end

/-! ### Lost commands (R362) -/

/-- The state a re-write of a lost command leaves: the command slot, the record of written commands, the token's issue time and
the two counts (R360, R362). -/
def State.resentLost (s : State) (i now : Nat) : State :=
  ((s.modTok i fun t => { t with issueTime := now, lostRefreshes := t.lostRefreshes + 1 }).count fun c =>
    { c with lostRefresh := c.lostRefresh + 1 }).writeCmd i (s.tokAt i).wire

section
variable {s : State} {i now : Nat}

/-- The token of a re-written command. -/
theorem State.tokAt_resentLost (hi : i < s.numSlots) :
    (s.resentLost i now).tokAt i = { s.tokAt i with issueTime := now, lostRefreshes := (s.tokAt i).lostRefreshes + 1 } := by
  rw [State.resentLost, State.writeCmd_tokAt, State.count_tokAt, State.tokAt_modTok_self s i _ hi]

theorem State.accepts_resentLost (ha : s.Accepts i now) : (s.resentLost i now).Accepts i now := by
  have hsize : (s.resentLost i now).numSlots = s.numSlots := by
    rw [State.resentLost, State.writeCmd_numSlots, State.count_numSlots, State.modTok_numSlots]
  exact ⟨ha.1.trans_eq hsize.symm, ha.2⟩

theorem State.polling_resentLost (hi : i < s.numSlots) (hp : s.Polling i) : (s.resentLost i now).Polling i := by
  rwa [State.Polling, State.tokAt_resentLost hi]

theorem State.unchanged_resentLost (hi : i < s.numSlots) (hu : s.Unchanged i) : (s.resentLost i now).Unchanged i := by
  have hcache : ((s.resentLost i now).slotAt i).cache = (s.slotAt i).cache := by
    rw [State.resentLost, State.writeCmd_slotAt, State.count_slotAt, State.slotAt_modTok_cache]
  rwa [State.Unchanged, hcache, State.tokAt_resentLost hi]

/-- A re-written command does not look lost in the same POLL (R362). -/
theorem State.notLost_resentLost (hi : i < s.numSlots) : (s.resentLost i now).NotLost i now := by
  have hissue : ((s.resentLost i now).tokAt i).issueTime = now := by rw [State.tokAt_resentLost hi]
  exact .inr (.inr (.inl (hissue.symm ▸ Nat.le_add_right ..)))

/-- The lost-command check of a command that looks lost (R362). -/
theorem State.lostCheck_of_looksLost (hl : (s.tokAt i).looksLost s.params.cfg now = true) (hrun : s.run ≠ .dead) :
    (s.begin.atTime now).lostCheck i now = ((s.resentLost i now).begin.atTime now).withEvents [.rewrite i .lost] := by
  have hlost : ((s.begin.atTime now).tokAt i).looksLost (s.begin.atTime now).params.cfg now = true
      ∧ (s.begin.atTime now).run ≠ .dead := ⟨hl, hrun⟩
  rw [State.lostCheck, if_pos hlost, State.rewrite_eq _ i _ now hlost.2]
  simp only [State.modTok, State.modSlot, State.count, List.modify_modify_eq, State.begin, State.atTime,
    State.withEvents, State.resentLost, State.writeCmd]
  rfl

/-- The POLL of a lost command goes on as that of the re-written state (R362). -/
theorem State.pollGoesOn_resentLost (ha : s.Accepts i now) (hp : s.Polling i) (hu : s.Unchanged i)
    (hl : (s.tokAt i).looksLost s.params.cfg now = true) (hrun : s.run ≠ .dead) :
    s.PollGoesOn (s.resentLost i now) i now [.rewrite i .lost] := by
  have hresent : (s.resentLost i now).Accepts i now := State.accepts_resentLost ha
  have hpolling : (s.resentLost i now).Polling i := State.polling_resentLost ha.1 hp
  refine State.pollGoesOn_of_rest s i _ _ now hresent hpolling (State.unchanged_resentLost ha.1 hu) ?_
  rw [← State.begin_atTime_eq_onSlot hresent.1, State.poll_eq_rest_of_unchanged ha hp hu]
  refine congrArg Host.Outcome.next (State.pollRest_of_lostCheck ?_ ?_ ?_ (State.lostCheck_of_looksLost hl hrun))
  · exact hp.2
  · exact hpolling.2
  · exact State.notLost_resentLost ha.1

/-- A command slot holds what is written to it, and no other address changes (20_memory.md R85). -/
theorem State.wroteSlot_writeCmd (s : State) (i : Nat) (W : CmdWord) : s.WroteSlot (s.writeCmd i W) i W := by
  refine ⟨fun k hk => ?inside, fun a ha => ?outside⟩
  case inside =>
    have haddr : s.cmdAddr i ≤ s.cmdAddr i + k ∧ s.cmdAddr i + k < s.cmdAddr i + 64 := by omega
    exact (s.read_writeCmd i W _).trans ((if_pos haddr).trans (congrArg (W.bytes[·]?) (Nat.add_sub_cancel_left ..)))
  case outside => exact (s.read_writeCmd i W a).trans (if_neg ha)

/-- The re-write writes the 64 bytes of its command slot and no other (R360). -/
theorem State.wroteSlot_resentLost : s.WroteSlot (s.resentLost i now) i (s.tokAt i).wire :=
  State.wroteSlot_writeCmd ((s.modTok i _).count _) i _

/-- The conditions of R362, as the statement lists them, are the machine's. -/
theorem State.looksLost_of_untouched (hthresh : s.params.cfg.lostThresh ≠ 0)
    (htouched : ∀ u, (s.tokAt i).touchedTime = some u → u < (s.tokAt i).issueTime)
    (hlate : s.params.cfg.lostThresh < now - (s.tokAt i).issueTime) (hbudget : (s.tokAt i).lostRefreshes < s.params.cfg.lostMax) :
    (s.tokAt i).looksLost s.params.cfg now = true := by
  have hpassed : (s.tokAt i).issueTime + s.params.cfg.lostThresh < now := by omega
  cases h : (s.tokAt i).touchedTime with
  | none => simp [Token.looksLost, h, hthresh, hpassed, hbudget]
  | some u => simp [Token.looksLost, h, hthresh, hpassed, hbudget, htouched u h]

end

/-- Settles O57: the re-write, and the POLL of the re-written state after it. -/
theorem lostCommandIsRewritten : Obligations.LostCommandIsRewritten := by
  intro s i now ha hp hu hthresh htouched hlate hbudget hrun
  have hgoes : s.PollGoesOn (s.resentLost i now) i now [.rewrite i .lost] :=
    State.pollGoesOn_resentLost ha hp hu (State.looksLost_of_untouched hthresh htouched hlate hbudget) hrun
  have haccepts : (s.resentLost i now).Accepts i now := State.accepts_resentLost ha
  have hpolling : (s.resentLost i now).Polling i := State.polling_resentLost ha.1 hp
  have hunchanged : (s.resentLost i now).Unchanged i := State.unchanged_resentLost ha.1 hu
  have hnotLost : (s.resentLost i now).NotLost i now := State.notLost_resentLost ha.1
  refine ⟨State.wroteSlot_resentLost, haccepts, hpolling, hunchanged, hnotLost, hgoes, fun hd => ?idle⟩
  have hd' : now < ((s.resentLost i now).tokAt i).armedTime + ((s.resentLost i now).tokAt i).tmoDur := by
    rwa [State.tokAt_resentLost ha.1]
  exact hgoes.poll_eq (State.poll_idle haccepts hpolling hunchanged hnotLost hd')

/-! ### Deadlines (R370-R377) -/

/-- A POLL that runs into a passed deadline: no new status byte, no re-write due (R370). -/
structure State.Overdue (s : State) (i now : Nat) : Prop where
  accepts : s.Accepts i now
  polling : s.Polling i
  unchanged : s.Unchanged i
  notLost : s.NotLost i now
  deadline : (s.tokAt i).armedTime + (s.tokAt i).tmoDur ≤ now

section
variable {s : State} {i now : Nat} {sl : Slot} {st : Stats} {evs : List Event}

/-- Such a POLL is one handling of the timeout (R370, R371). -/
theorem State.Overdue.poll_eq (h : s.Overdue i now) :
    exec (.poll i now) s = .next (((s.begin.atTime now).timeoutHandle i now).finish i) := by
  rw [State.poll_unchanged s i now h.accepts h.polling h.unchanged, State.begin_atTime_eq_onSlot h.accepts.1]
  exact congrArg _ (State.pollRest_elapsed s i s.stats [] now (s.tokAt i) h.accepts.1 h.polling.2
    ((s.notLost_iff i now).1 h.notLost) ((Token.elapsed_eq_true _ now).2 h.deadline))

/-- The last refresh of the token's type (10_state.md R33, R45). -/
theorem State.refreshTime_ttype (s : State) (i : Nat) :
    s.refreshTime (s.ttype i) = if i < s.numSlots - s.params.r then s.refreshGeneral else s.refreshReserved := by
  rw [State.ttype]
  split <;> rfl

/-- The false-timeout guard (R372). -/
theorem State.starved_iff (s : State) (i : Nat) :
    s.starved i = true ↔ ∀ r, s.refreshTime (s.ttype i) = some r → r < (s.tokAt i).armedTime := by
  rw [State.starved]
  cases s.refreshTime (s.ttype i) <;> simp

/-- When read-buffer recovery applies (R373). -/
theorem State.rdbufRecoverApplies_iff (s : State) (i : Nat) :
    s.rdbufRecoverApplies i = true ↔ s.params.cfg.rdbufTracking = true ∧ (s.tokAt i).cls = .read ∧ (s.tokAt i).stage = .queued
      ∧ (s.tokAt i).rdbufRecover < s.params.cfg.rdbufRecoverMax := by
  simp [State.rdbufRecoverApplies, and_assoc]

/-- A false timeout is counted and nothing else (R372). -/
theorem State.timeoutHandle_starved (h : s.starved i = true) :
    s.timeoutHandle i now = s.count fun c => { c with falseTimeout := c.falseTimeout + 1 } :=
  if_pos h

/-- Past the guard, read-buffer recovery comes first (R371, R373). -/
theorem State.timeoutHandle_recover (hs : ¬ s.starved i = true) (hr : s.rdbufRecoverApplies i = true) :
    s.timeoutHandle i now = s.recover i now := by
  rw [State.timeoutHandle, if_neg hs, if_pos hr]

/-- Past guard and recovery, a marked token is replayed unless the device is DEAD; any other timeout is real (R371, R387). -/
theorem State.timeoutHandle_past (hs : ¬ s.starved i = true) (hr : ¬ s.rdbufRecoverApplies i = true) :
    s.timeoutHandle i now
      = if ((s.tokAt i).oooMissing = true ∨ (s.tokAt i).oooReplay = true) ∧ s.run ≠ .dead then s.oooTimeout i now
        else s.realTimeout i := by
  rw [State.timeoutHandle, if_neg hs, if_neg hr]

/-- Read-buffer recovery: the event, the deadline of a queued read, one attempt used (R373). -/
theorem State.onSlot_recover :
    (s.onSlot i sl st evs).recover i now
      = s.onSlot i { sl with
          tok := { sl.tok with
            armedTime := now, tmoDur := s.params.cfg.tmoRead.queued, rdbufRecover := sl.tok.rdbufRecover + 1 } } st
          (evs ++ [.recoverRdBufs i]) := by
  rw [State.recover, State.onSlot_emit, State.onSlot_modTok]
  rfl

/-- The token an expected timeout leaves: issued again, one mark cleared and the deadline that goes with it (R375). -/
def Token.replayed (t : Token) (c : Cfg) (now : Nat) : Token :=
  if t.oooMissing = true then
    { t with issueTime := now, armedTime := now, tmoDur := c.quickTimeout t.cls, oooMissing := false }
  else { t with issueTime := now, armedTime := now, tmoDur := (c.timeouts t.cls).entry t.stage, oooReplay := false }

theorem Token.replayed_result (t : Token) (c : Cfg) : (t.replayed c now).result = t.result := by
  rw [Token.replayed]
  split <;> rfl

/-- The expected timeout: the command written again and counted, and its token replayed (R360, R375). -/
theorem State.onSlot_oooTimeout (hi : i < s.numSlots) (hrun : s.run ≠ .dead) :
    (s.onSlot i sl st evs).oooTimeout i now
      = (s.writeCmd i sl.tok.wire).onSlot i { sl with tok := sl.tok.replayed s.params.cfg now }
          { st with oooReplay := st.oooReplay + 1 } (evs ++ [.rewrite i .oooTimeout]) := by
  have hi' : i < (s.writeCmd i sl.tok.wire).numSlots := hi.trans_eq (State.writeCmd_numSlots ..).symm
  rw [State.oooTimeout, State.onSlot_rewrite s i sl st evs _ now hi hrun, State.onSlot_count]
  simp only [State.stageTmo_eq, State.onSlot_tokAt _ i _ _ _ hi', State.onSlot_params, State.onSlot_modTok,
    State.writeCmd_params, Token.replayed]
  split
  · rw [Cfg.oooQuick_eq]
    rfl
  · rfl

/-- Clearing the pending deallocation, as a change of that field (R377). -/
theorem Token.clearDealloc_eq (t : Token) (c : Cfg) :
    t.clearDealloc c = { t with dealloc := if c.rdbufTracking = true ∧ c.noRetryTmoDealloc = true then none else t.dealloc } := by
  rw [Token.clearDealloc]
  split <;> rfl

/-- The real timeout: TIMEOUT, counted, logged unless the token is quiet (R376, R377). -/
theorem State.onSlot_realTimeout (hi : i < s.numSlots) :
    (s.onSlot i sl st evs).realTimeout i
      = s.onSlot i { sl with
          tok := { sl.tok with
            timeouts := sl.tok.timeouts + 1, result := .timeout, why := some .timeout,
            dealloc := if s.params.cfg.rdbufTracking = true ∧ s.params.cfg.noRetryTmoDealloc = true then none else sl.tok.dealloc } }
          { st with timeout := st.timeout + 1 } (evs ++ if sl.tok.quiet = true then [] else [.log .warn i .timeout none]) := by
  rw [State.realTimeout, State.onSlot_tokAt s i sl st evs hi]
  by_cases hq : sl.tok.quiet = true
  · simp only [if_pos hq, State.onSlot_count, State.onSlot_modTok, State.onSlot_setResult, State.onSlot_params,
      Token.clearDealloc_eq, List.append_nil]
  · simp only [if_neg hq, State.onSlot_emit, State.onSlot_count, State.onSlot_modTok, State.onSlot_setResult,
      State.onSlot_params, Token.clearDealloc_eq]

/-- A false timeout, in the words of the statement (R372). -/
theorem State.Overdue.poll_starved (h : s.Overdue i now) (hs : s.starved i = true) :
    exec (.poll i now) s = .next { s with
      lastNow := now, stats := { s.stats with falseTimeout := s.stats.falseTimeout + 1 },
      resp := Response.ofToken false .notComplete [] } := by
  have hguard : (s.begin.atTime now).starved i = true := hs
  rw [h.poll_eq, State.timeoutHandle_starved hguard]
  exact congrArg _ (if_pos h.polling.2)

/-- Read-buffer recovery leaves the command pending (R373). -/
theorem State.Overdue.poll_recover (h : s.Overdue i now) (hs : ¬ s.starved i = true) (hr : s.rdbufRecoverApplies i = true) :
    exec (.poll i now) s = .next (s.pending i now
      { s.tokAt i with
        armedTime := now, tmoDur := s.params.cfg.tmoRead.queued, rdbufRecover := (s.tokAt i).rdbufRecover + 1 } s.stats
      [.recoverRdBufs i]) := by
  have hhandle : (s.begin.atTime now).timeoutHandle i now = (s.begin.atTime now).recover i now :=
    State.timeoutHandle_recover hs hr
  rw [h.poll_eq, hhandle, State.begin_atTime_eq_onSlot h.accepts.1, State.onSlot_recover]
  exact congrArg _ (State.finish_pending s i _ s.stats [.recoverRdBufs i] now h.accepts.1 h.polling.2 rfl rfl rfl)

/-- A write of a command slot and the end of a pending POLL touch different parts of the state. -/
theorem State.pending_writeCmd (s : State) (i now : Nat) (W : CmdWord) (tok : Token) (st : Stats) (evs : List Event) :
    (s.writeCmd i W).pending i now tok st evs
      = { s.pending i now tok st evs with
          mem := s.mem.writeBytes (s.params.cmdBase + 64 * i) W.bytes, submitted := s.submitted ++ [(i, W)] } := by
  simp only [State.pending, State.writeCmd, State.cmdAddr]

/-- An expected timeout writes the command again and leaves it pending (R375). -/
theorem State.Overdue.poll_replay (h : s.Overdue i now) (hs : ¬ s.starved i = true) (hr : ¬ s.rdbufRecoverApplies i = true)
    (hmarked : (s.tokAt i).oooMissing = true ∨ (s.tokAt i).oooReplay = true) (hrun : s.run ≠ .dead) :
    exec (.poll i now) s = .next ((s.writeCmd i (s.tokAt i).wire).pending i now ((s.tokAt i).replayed s.params.cfg now)
      { s.stats with oooReplay := s.stats.oooReplay + 1 } [.rewrite i .oooTimeout]) := by
  have hi : i < ({ s with lastNow := now } : State).numSlots := h.accepts.1
  have hi' : i < (s.writeCmd i (s.tokAt i).wire).numSlots := h.accepts.1.trans_eq (State.writeCmd_numSlots ..).symm
  have hhandle : (s.begin.atTime now).timeoutHandle i now = (s.begin.atTime now).oooTimeout i now :=
    (State.timeoutHandle_past (s := s.begin.atTime now) hs hr).trans (if_pos ⟨hmarked, hrun⟩)
  have hslot : (s.writeCmd i (s.tokAt i).wire).slotAt i = s.slotAt i := State.writeCmd_slotAt ..
  rw [h.poll_eq, hhandle, State.begin_atTime_eq_onSlot h.accepts.1, State.onSlot_oooTimeout hi hrun]
  refine congrArg _ (State.finish_pending (s.writeCmd i (s.tokAt i).wire) i
    { s.slotAt i with tok := (s.tokAt i).replayed s.params.cfg now } _ _ now hi' ?_ ?_ ?_ ?_)
  · exact (Token.replayed_result ..).trans h.polling.2
  all_goals rw [hslot]

/-- A real timeout ends the command (R376, R281). -/
theorem State.Overdue.poll_fail (h : s.Overdue i now) (hs : ¬ s.starved i = true) (hr : ¬ s.rdbufRecoverApplies i = true)
    (hreal : ¬ (((s.tokAt i).oooMissing = true ∨ (s.tokAt i).oooReplay = true) ∧ s.run ≠ .dead)) :
    exec (.poll i now) s = .next (s.concluded i now
      { s.tokAt i with
        timeouts := (s.tokAt i).timeouts + 1, result := .timeout, why := some .timeout,
        dealloc := if s.params.cfg.rdbufTracking = true ∧ s.params.cfg.noRetryTmoDealloc = true then none
          else (s.tokAt i).dealloc }
      (s.slotAt i).ctr { s.stats with timeout := s.stats.timeout + 1 }
      (if (s.tokAt i).quiet = true then [] else [.log .warn i .timeout none])) := by
  have hi : i < ({ s with lastNow := now } : State).numSlots := h.accepts.1
  have hhandle : (s.begin.atTime now).timeoutHandle i now = (s.begin.atTime now).realTimeout i :=
    (State.timeoutHandle_past (s := s.begin.atTime now) hs hr).trans (if_neg hreal)
  rw [h.poll_eq, hhandle, State.begin_atTime_eq_onSlot h.accepts.1, State.onSlot_realTimeout hi]
  exact congrArg _ (State.finish_concluded s i _ _ _ now h.accepts.1 nofun rfl rfl)

end

/-- Settles O58: the guard first, and past it the recovery of read buffers. -/
theorem timeoutGuardAndRecovery : Obligations.TimeoutGuardAndRecovery := by
  intro s i now ha hp hu hn hd c refreshed starved recovers
  have h : s.Overdue i now := ⟨ha, hp, hu, hn, hd⟩
  have hstarved : s.starved i = true ↔ starved := by rw [State.starved_iff, State.refreshTime_ttype]
  exact ⟨fun hs => h.poll_starved (hstarved.2 hs),
    fun hs hr => h.poll_recover (hstarved.not.2 hs) ((s.rdbufRecoverApplies_iff i).2 hr)⟩

/-- Settles O59: past guard and recovery, a replay by each mark or a real timeout. -/
theorem timeoutReplayAndFailure : Obligations.TimeoutReplayAndFailure := by
  intro s i now r ha hp hu hn hd hrefresh harmed c hrecover t marked again
  have h : s.Overdue i now := ⟨ha, hp, hu, hn, hd⟩
  have hs : ¬ s.starved i = true := fun hs =>
    Nat.not_lt.2 harmed ((s.starved_iff i).1 hs r ((s.refreshTime_ttype i).trans hrefresh))
  have hr : ¬ s.rdbufRecoverApplies i = true := (s.rdbufRecoverApplies_iff i).not.2 hrecover
  refine ⟨fun hrun hm => ?missing, fun hrun hm hy => ?delayed, fun hx => ?real⟩
  case missing =>
    rw [h.poll_replay hs hr (.inl hm) hrun, State.pending_writeCmd, Token.replayed, if_pos hm]
  case delayed =>
    rw [h.poll_replay hs hr (.inr hy) hrun, State.pending_writeCmd, Token.replayed, if_neg (ne_true_of_eq_false hm)]
  case real => exact h.poll_fail hs hr fun ⟨hm, hrun⟩ => hx.elim hrun (· hm)

end Sys2Proof.Machine
end

section
/-! PROOFS. O8: every instruction answers a next state. An operation may end in an error, but `State.answer` turns the
error into a response (60_exceptions.md R400, R407), so each arm of `exec` ends in a next state. -/

namespace Sys2Proof.Machine

open Sys2Proof

/-- An operation answers a next state, whether it ends in an error or not (60_exceptions.md R400). -/
theorem State.answer_next (s : State) (r : Except OpError State) : ∃ t, s.answer r = .next t := by
  cases r with
  | ok t => exact ⟨t, s.answer_ok t⟩
  | error e => exact ⟨_, s.answer_error e⟩

/-- Settles O8: a command is the encoder's answer, RESET and ENC_FINALIZE cannot fail, and every other operation
answers its effect or its error. -/
theorem everyInstructionAnswers : Obligations.EveryInstructionAnswers := by
  intro i s
  by_cases hc : i.opBytes = none
  · obtain ⟨hd, st, req, hx⟩ := exec_command i s hc
    rw [hx]
    exact s.answer_next _
  cases i
  case opReset => exact ⟨s.doReset, rfl⟩
  case encFinalize => exact ⟨_, rfl⟩
  case encBuild | alloc | allocId | build | issue | statusRefresh | poll | reissue | detach | release =>
    exact s.answer_next _
  all_goals exact absurd rfl hc

end Sys2Proof.Machine
end

section
/-! Fields placed at once and written one after the other.  `headWord` and `joinParts` place a command's fields in an empty word,
the encoder writes them: of fields apart from one another the two are the same word (30_encoding.md R111-R115, 40_cmdgen.md
R172, R225-R231).  So what finalize answers for the word of a command's header is the encoding of its fields. -/

namespace Sys2Proof.Machine

open Sys2Proof

/-! ### Placed fields, bit by bit -/

section
variable {l : List (Field × Word)} {f : Field} {v : Word} {j k : Nat}

theorem getLsbD_placeWord (j k : Nat) (l : List (Field × Word)) :
    (placeWord j l).getLsbD k = l.any fun p => decide (p.1.holds j k) && (decide (k < 64) && p.2.getLsbD (k - p.1.lo)) := by
  induction l with
  | nil => simp [placeWord]
  | cons p l ih =>
    rw [placeWord, List.any_cons, ← ih]
    by_cases hj : p.1.word = j
    · simp only [hj, if_true, BitVec.getLsbD_or, getLsbD_place, Field.holds, true_and]
    · simp [hj, Field.holds]

theorem get_placeFields (l : List (Field × Word)) (hj : j < 8) : (placeFields l).get j = placeWord j l := by
  interval_cases j <;> rfl

/-- A bit in no placed field is 0. -/
theorem placeFields_bit_of_not_holds (hj : j < 8) (h : ∀ p ∈ l, ¬ p.1.holds j k) : (placeFields l).bit j k = false := by
  rw [CmdWord.bit, get_placeFields l hj, getLsbD_placeWord, List.any_eq_false]
  intro p hp
  simp [h p hp]

/-- A bit in a field apart from all others is the value's. -/
theorem placeFields_bit_of_holds (hl : (l.map Prod.fst).Pairwise fun f g => f.apart g = true) (hf : f.present = true)
    (h : (f, v) ∈ l) (hh : f.holds j k) : (placeFields l).bit j k = v.getLsbD (k - f.lo) := by
  obtain ⟨hword, -, hwidth⟩ := f.present_iff.1 hf
  have hj : j < 8 := hh.1 ▸ hword
  have hk : k < 64 := by obtain ⟨-, -, hu⟩ := hh; omega
  rw [CmdWord.bit, get_placeFields l hj, getLsbD_placeWord]
  induction l with
  | nil => exact absurd h List.not_mem_nil
  | cons p l ih =>
    rw [List.map_cons, List.pairwise_cons] at hl
    rw [List.any_cons]
    obtain rfl | h := List.mem_cons.1 h
    · have rest : (l.any fun p => decide (p.1.holds j k) && (decide (k < 64) && p.2.getLsbD (k - p.1.lo))) = false :=
        List.any_eq_false.2 fun q hq => by
          simp [Field.not_holds_of_apart (hl.1 q.1 (List.mem_map_of_mem hq)) hh]
      rw [rest, decide_eq_true hh, decide_eq_true hk, Bool.true_and, Bool.true_and, Bool.or_false]
    · have hp : ¬ p.1.holds j k := fun hp =>
        Field.not_holds_of_apart (hl.1 f (List.mem_map_of_mem (f := Prod.fst) h)) hp hh
      rw [ih hl.2 h, decide_eq_false hp, Bool.false_and, Bool.false_or]

/-! ### Written fields, bit by bit -/

theorem writeFields_bit_of_not_holds (hl : ∀ p ∈ l, p.1.present = true) (h : ∀ p ∈ l, ¬ p.1.holds j k) (W : CmdWord) :
    (writeFields W l).bit j k = W.bit j k := by
  induction l generalizing W with
  | nil => rfl
  | cons p l ih =>
    rw [List.forall_mem_cons] at hl h
    rw [writeFields_cons, ih hl.2 h.2, CmdWord.bit_setField _ _ hl.1, if_neg h.1]

theorem writeFields_bit_of_holds (hl : ∀ p ∈ l, p.1.present = true)
    (ha : (l.map Prod.fst).Pairwise fun f g => f.apart g = true) (h : (f, v) ∈ l) (hh : f.holds j k) (W : CmdWord) :
    (writeFields W l).bit j k = v.getLsbD (k - f.lo) := by
  induction l generalizing W with
  | nil => exact absurd h List.not_mem_nil
  | cons p l ih =>
    rw [List.map_cons, List.pairwise_cons] at ha
    rw [List.forall_mem_cons] at hl
    rw [writeFields_cons]
    obtain rfl | h := List.mem_cons.1 h
    · rw [writeFields_bit_of_not_holds hl.2 fun q hq => Field.not_holds_of_apart (ha.1 q.1 (List.mem_map_of_mem hq)) hh,
        CmdWord.bit_setField _ _ hl.1, if_pos hh]
    · exact ih hl.2 ha.2 h _

/-- Of fields apart from one another the order of the writes is free, and the word is the one they are placed in. -/
theorem writeFields_zero_eq_placeFields {l' : List (Field × Word)} (hp : l'.Perm l) (hl : ∀ p ∈ l, p.1.present = true)
    (ha : (l.map Prod.fst).Pairwise fun f g => f.apart g = true) : writeFields CmdWord.zero l' = placeFields l := by
  have hl' : ∀ p ∈ l', p.1.present = true := fun p h => hl p (hp.subset h)
  have ha' : (l'.map Prod.fst).Pairwise fun f g => f.apart g = true := ha.perm (hp.map _).symm Field.apart_comm
  apply CmdWord.ext_bit
  intro j k hj _
  by_cases h : ∃ p ∈ l, p.1.holds j k
  · obtain ⟨⟨f, v⟩, hmem, hh⟩ := h
    rw [writeFields_bit_of_holds hl' ha' (hp.symm.subset hmem) hh,
      placeFields_bit_of_holds ha (hl _ hmem) hmem hh]
  · have hn : ∀ p ∈ l, ¬ p.1.holds j k := fun p hmem hh => h ⟨p, hmem, hh⟩
    rw [writeFields_bit_of_not_holds hl' fun p hmem => hn p (hp.subset hmem), placeFields_bit_of_not_holds hj hn,
      CmdWord.bit, CmdWord.get_zero]
    exact BitVec.getLsbD_zero

end

end Sys2Proof.Machine

namespace Sys2Proof

/-- The fields of a command that `build` writes, with their values (30_encoding.md R112-R114). -/
def Parts.builtFields (L : Layout) (p : Parts) : List (Field × Word) :=
  [(L.opc, p.opc.setWidth 64), (L.dir, p.hdr.dir.setWidth 64), (L.hwOnly, p.hdr.hwOnly.setWidth 64),
   (L.dupChk, p.hdr.dupChk.setWidth 64), (L.dsize, p.hdr.dsize.setWidth 64), (L.msize, p.hdr.msize.setWidth 64),
   (L.src, p.src.setWidth 64), (L.dst, p.dst.setWidth 64), (L.aux0, p.aux0.setWidth 64), (L.aux1, p.aux1.setWidth 64),
   (L.aux2, p.aux2.setWidth 64)]

/-- The checksum fields with their values (R115). -/
def Parts.xsumFields (L : Layout) (p : Parts) : List (Field × Word) :=
  [(L.xsumLo, p.stamp.xsum.extractLsb' 0 64), (L.xsumHi, p.stamp.xsum.extractLsb' 64 64)]

/-- The polarity bits with their value (R116). -/
def Parts.polarityFields (L : Layout) (p : Parts) : List (Field × Word) :=
  L.polarityFields.map fun f => (f, p.stamp.odd.setWidth 64)

/-- The unfinalized word of a command's fields (40_cmdgen.md R172). -/
def Parts.builtWord (L : Layout) (p : Parts) : CmdWord := placeFields (p.builtFields L)

end Sys2Proof

namespace Sys2Proof.Machine

open Sys2Proof

section
variable {L : Layout}

/-- The fields of a command are those `build` writes, those finalize stamps on the header, checksum and polarity. -/
theorem parts_fields_perm (p : Parts) :
    (p.builtFields L ++ L.headerStamps p.stamp.slot p.stamp.seq p.stamp.dealloc ++ p.xsumFields L ++ p.polarityFields L).Perm
      (p.fields L) := by
  have hv : (if p.stamp.dealloc.isSome then (1 : Word) else 0) = (BitVec.ofBool p.stamp.dealloc.isSome).setWidth 64 := by
    cases p.stamp.dealloc <;> rfl
  have order : ([0, 3, 4, 5, 6, 7, 10, 11, 12, 13, 14, 1, 8, 9, 2, 15, 16] : List (Fin 17)).Perm (List.finRange 17) := by decide
  rw [Parts.fields, hv]
  exact (order.map (![_, _, _, _, _, _, _, _, _, _, _, _, _, _, _, _, _] : Fin 17 → Field × Word)).append_right _

theorem map_fst_fields (p : Parts) :
    (p.fields L).map Prod.fst = L.protectedFields ++ L.auxFields ++ L.xsumFields ++ L.polarityFields := by
  simp [Parts.fields, Layout.protectedFields, Layout.header, Layout.auxFields, Layout.xsumFields, Function.comp_def]

theorem fields_sublist (p : Parts) : ((p.fields L).map Prod.fst).Sublist L.allFields := by
  rw [map_fst_fields, Layout.allFields]
  exact List.sublist_append_left ..

theorem fields_present (hw : L.eightWords = true) (p : Parts) : ∀ q ∈ p.fields L, q.1.present = true := fun _ hq =>
  Layout.present_of_mem hw ((fields_sublist p).subset (List.mem_map_of_mem hq))

theorem fields_pairwise (hu : L.unambiguous = true) (p : Parts) :
    ((p.fields L).map Prod.fst).Pairwise fun f g => f.apart g = true :=
  (L.allFields_pairwise hu).sublist (fields_sublist p)

theorem map_fst_builtFields (p : Parts) : (p.builtFields L).map Prod.fst = L.builtFields := rfl

theorem builtFields_present (hw : L.eightWords = true) (p : Parts) : ∀ q ∈ p.builtFields L, q.1.present = true := fun _ hq =>
  Layout.present_of_mem hw (Layout.builtFields_sublist.subset (List.mem_map_of_mem (f := Prod.fst) hq))

theorem builtFields_pairwise (hu : L.unambiguous = true) (p : Parts) :
    ((p.builtFields L).map Prod.fst).Pairwise fun f g => f.apart g = true :=
  (L.allFields_pairwise hu).sublist Layout.builtFields_sublist

/-- The header's word, written field by field. -/
theorem builtWord_eq_writeFields (hw : L.eightWords = true) (hu : L.unambiguous = true) (p : Parts) :
    p.builtWord L = writeFields CmdWord.zero (p.builtFields L) :=
  (writeFields_zero_eq_placeFields (.refl _) (builtFields_present hw p) (builtFields_pairwise hu p)).symm

theorem writeFields_append (W : CmdWord) (l l' : List (Field × Word)) :
    writeFields W (l ++ l') = writeFields (writeFields W l) l' := List.foldl_append

theorem stampPolarity_eq_writeFields (W : CmdWord) (p : Parts) :
    stampPolarity W p.stamp.odd L.polarity = writeFields W (p.polarityFields L) := by
  simp only [stampPolarity, writeFields, Parts.polarityFields, Layout.polarityFields, List.foldl_map]

/-- The stamped header of a command's word. -/
def stampedParts (L : Layout) (p : Parts) : CmdWord :=
  stampHeader L (p.builtWord L) p.stamp.slot p.stamp.seq p.stamp.dealloc

/-- All fields of a command placed: header, checksum and polarity written one after the other. -/
theorem placeFields_fields (hw : L.eightWords = true) (hu : L.unambiguous = true) (p : Parts) :
    placeFields (p.fields L)
      = stampPolarity (((stampedParts L p).setField L.xsumLo (p.stamp.xsum.extractLsb' 0 64)).setField L.xsumHi
          (p.stamp.xsum.extractLsb' 64 64)) p.stamp.odd L.polarity := by
  rw [← writeFields_zero_eq_placeFields (parts_fields_perm p) (fields_present hw p) (fields_pairwise hu p), writeFields_append,
    writeFields_append, writeFields_append, ← builtWord_eq_writeFields hw hu, ← stampHeader_eq_writeFields,
    ← stampPolarity_eq_writeFields]
  rfl

/-- A bit of all fields placed: polarity, checksum, or the stamped header. -/
theorem placeFields_fields_bit (hw : L.eightWords = true) (hu : L.unambiguous = true) (p : Parts) (j k : Nat) :
    (placeFields (p.fields L)).bit j k =
      if (j, k) ∈ L.polarity then p.stamp.odd.getLsbD 0
      else if L.xsumHi.holds j k then p.stamp.xsum.getLsbD (64 + (k - L.xsumHi.lo))
      else if L.xsumLo.holds j k then p.stamp.xsum.getLsbD (k - L.xsumLo.lo)
      else (stampedParts L p).bit j k := by
  have plo := Layout.present_of_mem hw (f := L.xsumLo) (by simp [Layout.allFields, Layout.xsumFields])
  have phi := Layout.present_of_mem hw (f := L.xsumHi) (by simp [Layout.allFields, Layout.xsumFields])
  have ppol (q : Nat × Nat) (hq : q ∈ L.polarity) : (polarityField q).present = true :=
    Layout.present_of_mem hw (by simp [Layout.allFields, Layout.polarityFields, List.mem_map_of_mem hq])
  rw [placeFields_fields hw hu, stampPolarity_bit _ _ ppol, CmdWord.bit_setField _ _ phi, CmdWord.bit_setField _ _ plo]
  have wlo := (Field.present_iff _).1 plo
  have whi := (Field.present_iff _).1 phi
  split_ifs with hp hhi hlo
  · rfl
  · simp [show k - L.xsumHi.lo < 64 by omega]
  · simp [show k - L.xsumLo.lo < 64 by omega]
  · rfl

/-- A field of at least its operand's width that is placed with all others reads as the operand. -/
theorem getField_placeFields (hw : L.eightWords = true) (hu : L.unambiguous = true) (p : Parts) {f : Field} {n : Nat}
    {v : BitVec n} (hf : (f, v.setWidth 64) ∈ p.fields L) (hn : n ≤ f.width) :
    (placeFields (p.fields L)).getField f = v.setWidth 64 := by
  rw [← writeFields_zero_eq_placeFields (.refl _) (fields_present hw p) (fields_pairwise hu p),
    getField_writeFields (fields_present hw p) (fields_pairwise hu p) hf, setWidth_and_lowMask v hn]

/-- The header's word holds the operands its fields are wide enough for. -/
theorem getField_builtWord (hw : L.eightWords = true) (hu : L.unambiguous = true) (p : Parts) {f : Field} {n : Nat}
    {v : BitVec n} (hf : (f, v.setWidth 64) ∈ p.builtFields L) (hn : n ≤ f.width) :
    (p.builtWord L).getField f = v.setWidth 64 := by
  rw [builtWord_eq_writeFields hw hu, getField_writeFields (builtFields_present hw p) (builtFields_pairwise hu p) hf,
    setWidth_and_lowMask v hn]

/-- A one-bit value as a word is 1 exactly when it is 1. -/
theorem setWidth_eq_one_iff (v : BitVec 1) : v.setWidth 64 = (1 : Word) ↔ v = 1 := by revert v; decide

theorem dupChk_wide (hw : L.eightWords = true) : 1 ≤ L.dupChk.width :=
  ((Field.present_iff _).1 (Layout.present_of_mem hw (f := L.dupChk)
    (by simp [Layout.allFields, Layout.protectedFields, Layout.header]))).2.1

/-- The top two bits of word 5 of an encoding are the checksum MSBs the layout names, all other bits those of the fields placed
and duplicated (R114, R115). -/
theorem joinParts_bit (hw : L.eightWords = true) (hu : L.unambiguous = true) (p : Parts) (j k : Nat) (hk : k < 64) :
    (joinParts L p).bit j k =
      if j = 5 ∧ k = 63 then p.stamp.xsum.getLsbD L.msb1 else if j = 5 ∧ k = 62 then p.stamp.xsum.getLsbD L.msb0
      else (mirrorWords L (placeFields (p.fields L))).bit j k := by
  have hdup : p.hdr.dupChk = 1 ↔ (placeFields (p.fields L)).getField L.dupChk = 1 := by
    rw [getField_placeFields hw hu p (v := p.hdr.dupChk) (by simp [Parts.fields]) (dupChk_wide hw), setWidth_eq_one_iff]
  have hjoin : joinParts L p = { mirrorWords L (placeFields (p.fields L)) with
      w5 := (p.stamp.xsum.extractLsb' L.msb1 1 ++ p.stamp.xsum.extractLsb' L.msb0 1 : BitVec 2)
        ++ (mirrorWords L (placeFields (p.fields L))).w5.extractLsb' 0 62 } := by
    simp only [joinParts, mirrorWords, hdup]
  rw [hjoin]
  generalize mirrorWords L (placeFields (p.fields L)) = V
  by_cases hj : j = 5
  · subst hj
    simp only [CmdWord.bit, CmdWord.get, BitVec.getLsbD_append, BitVec.getLsbD_extractLsb', true_and]
    obtain h | rfl | rfl : k < 62 ∨ k = 62 ∨ k = 63 := by omega
    · simp [h, show k ≠ 62 by omega, show k ≠ 63 by omega]
    · simp
    · simp
  · rw [if_neg fun h => hj h.1, if_neg fun h => hj h.1]
    match j with
    | 0 | 1 | 2 | 3 | 4 | 6 | 7 => rfl
    | 5 => exact absurd rfl hj
    | _ + 8 => rfl

/-- Finalize of the word of a command's header, with the command's own stamp, is the command's encoding (R225-R231, R111-R116):
what finalize writes after the duplication lies alike in a word and its mirror, by (L2). -/
theorem finalize_builtWord (ha : L.admissible = true) (hu : L.unambiguous = true) (p : Parts) :
    finalize L (p.builtWord L) p.stamp.odd p.stamp.slot p.stamp.seq p.stamp.dealloc p.stamp.xsum = joinParts L p := by
  obtain ⟨hw, hm, -, -, -, hh⟩ := Layout.admissible_iff.1 ha
  have hdupP : (placeFields (p.fields L)).getField L.dupChk = p.hdr.dupChk.setWidth 64 :=
    getField_placeFields hw hu p (by simp [Parts.fields]) (dupChk_wide hw)
  have hdupS : (stampedParts L p).getField L.dupChk = p.hdr.dupChk.setWidth 64 :=
    (getField_dupChk_stampHeader _ _ _ _ hw hh).trans
      (getField_builtWord hw hu p (by simp [Parts.builtFields]) (dupChk_wide hw))
  apply CmdWord.ext_bit
  intro j k hj hk
  rw [finalize_bit _ _ _ _ _ _ hw, stampChecksum_bit hw, joinParts_bit hw hu p j k hk, ← stampedParts]
  by_cases h63 : j = 5 ∧ k = 63
  · obtain ⟨rfl, rfl⟩ := h63
    rw [if_neg (L.mirrors_msb hm (.inr rfl))]
    rfl
  by_cases h62 : j = 5 ∧ k = 62
  · obtain ⟨rfl, rfl⟩ := h62
    rw [if_neg (L.mirrors_msb hm (.inl rfl))]
    rfl
  rw [if_neg h63, if_neg h62, if_neg h63, if_neg h62]
  by_cases hd : p.hdr.dupChk = 1
  · rw [← setWidth_eq_one_iff] at hd
    by_cases hout : j < 3 ∨ 6 ≤ j
    · rw [mirrorWords_bit_of_outside _ hout, mirrorWords_bit_of_outside _ hout, placeFields_fields_bit hw hu]
    · obtain ⟨i, rfl⟩ : ∃ i, j = i + 3 := ⟨j - 3, by omega⟩
      have hi : i < 3 := by omega
      obtain ⟨hpol, hx⟩ := L.mirrors_position hm hi hk (by omega)
      rw [mirrorWords_bit_copy (hdupS.trans hd) hi, mirrorWords_bit_copy (hdupP.trans hd) hi, placeFields_fields_bit hw hu]
      by_cases hp : (i, k) ∈ L.polarity
      · rw [if_pos hp, if_pos (hpol.1 hp)]
      · obtain ⟨⟨hlo, hlo'⟩, ⟨hhi, hhi'⟩, -⟩ := List.forall_mem_cons.1 (hx hp) |>.imp_right List.forall_mem_cons.1
        rw [if_neg hp, if_neg (hpol.not.1 hp), if_neg hlo, if_neg hlo', if_neg hhi, if_neg hhi']
  · rw [← setWidth_eq_one_iff] at hd
    rw [mirrorWords_of_ne (hdupS ▸ hd), mirrorWords_of_ne (hdupP ▸ hd), placeFields_fields_bit hw hu]

end

end Sys2Proof.Machine
end

section
/-! Codes and the names they stand for (30_encoding.md R131, R142, R149): with one code for each name a code names exactly the
name it is the code of. -/

namespace Sys2Proof

/-! ### One code for each name -/

theorem allDistinct_iff_nodup {α : Type} [BEq α] [LawfulBEq α] (l : List α) : allDistinct l = true ↔ l.Nodup := by
  induction l with
  | nil => simp [allDistinct]
  | cons a l ih => simp [allDistinct, ih]

section
variable {α β : Type} [DecidableEq α] {names : List α} {codes : List β} {d : β}

/-- Names in a list have their own codes when the codes are as many and differ. -/
theorem code_injective (hlen : codes.length = names.length) (hcodes : codes.Nodup) {a b : α} (ha : a ∈ names) (hb : b ∈ names)
    (h : codes.getD (names.idxOf a) d = codes.getD (names.idxOf b) d) : a = b := by
  have la : names.idxOf a < codes.length := hlen ▸ List.idxOf_lt_length_of_mem ha
  have lb : names.idxOf b < codes.length := hlen ▸ List.idxOf_lt_length_of_mem hb
  rw [List.getD_eq_getElem _ _ la, List.getD_eq_getElem _ _ lb] at h
  exact (List.idxOf_inj ha).1 ((List.Nodup.getElem_inj_iff hcodes).1 h)

/-- Looking a code up finds the name it is the code of, and no other. -/
theorem find_code_iff [DecidableEq β] (hlen : codes.length = names.length) (hcodes : codes.Nodup) (hall : ∀ a, a ∈ names) (c : β) (a : α) :
    names.find? (fun o => codes.getD (names.idxOf o) d == c) = some a ↔ codes.getD (names.idxOf a) d = c := by
  constructor
  · intro h
    simpa using List.find?_some h
  · rintro rfl
    obtain ⟨b, hb⟩ : ∃ b, names.find? (fun o => codes.getD (names.idxOf o) d == codes.getD (names.idxOf a) d) = some b :=
      Option.isSome_iff_exists.1 (List.find?_isSome.2 ⟨a, hall a, by simp⟩)
    have e : codes.getD (names.idxOf b) d = codes.getD (names.idxOf a) d := by simpa using List.find?_some hb
    rw [hb, code_injective hlen hcodes (hall b) (hall a) e]

end

section
variable {L : Layout}

theorem Layout.opcodeOf_eq_some_iff (h : L.codesFit = true) (c : Byte) (o : Opcode) : L.opcodeOf c = some o ↔ L.opcode o = c := by
  simp only [Layout.codesFit, Bool.and_eq_true, beq_iff_eq, allDistinct_iff_nodup] at h
  obtain ⟨⟨⟨⟨⟨⟨⟨hlen, -⟩, -⟩, hcodes⟩, -⟩, -⟩, -⟩, -⟩ := h
  exact find_code_iff hlen hcodes (fun o => by cases o <;> decide) c o

theorem Layout.statusOf_eq_some_iff (h : L.codesFit = true) (c : BitVec 5) (o : StatusCode) :
    L.statusOf c = some o ↔ L.statusCode o = c := by
  simp only [Layout.codesFit, Bool.and_eq_true, beq_iff_eq, allDistinct_iff_nodup] at h
  obtain ⟨⟨⟨⟨⟨⟨⟨-, hlen⟩, -⟩, -⟩, hcodes⟩, -⟩, -⟩, -⟩ := h
  exact find_code_iff hlen hcodes (fun o => by cases o <;> decide) c o

theorem Layout.faultOf_eq_some_iff (h : L.codesFit = true) (c : Byte) (o : FaultCode) :
    L.faultOf c = some o ↔ L.faultCode o = c := by
  simp only [Layout.codesFit, Bool.and_eq_true, beq_iff_eq, allDistinct_iff_nodup] at h
  obtain ⟨⟨⟨⟨⟨⟨⟨-, -⟩, hlen⟩, -⟩, -⟩, hcodes⟩, -⟩, -⟩ := h
  exact find_code_iff hlen hcodes (fun o => by cases o <;> decide) c o

/-- A byte as a word is a word below 256. -/
theorem setWidth_byte_eq_iff (v : Word) (c : Byte) : v = c.setWidth 64 ↔ v.toNat < 256 ∧ v.setWidth 8 = c := by
  constructor
  · rintro rfl
    have := c.isLt
    exact ⟨by rw [BitVec.toNat_setWidth]; omega, by simp⟩
  · rintro ⟨h, rfl⟩
    apply BitVec.eq_of_toNat_eq
    rw [BitVec.toNat_setWidth, BitVec.toNat_setWidth]
    omega

/-- The opcode field names the opcode whose code it holds (R131-R133). -/
theorem Layout.opcodeIn_eq_some_iff (h : L.codesFit = true) (W : CmdWord) (o : Opcode) :
    L.opcodeIn W = some o ↔ W.getField L.opc = (L.opcode o).setWidth 64 := by
  simp only [Layout.opcodeIn, setWidth_byte_eq_iff]
  by_cases hv : 256 ≤ (W.getField L.opc).toNat
  · simp [hv]
  · simp only [if_neg hv, Layout.opcodeOf_eq_some_iff h, Nat.lt_of_not_le hv, true_and, eq_comm]

theorem Layout.codesFit_of_unambiguous (hu : L.unambiguous = true) : L.codesFit = true := by
  simp only [Layout.unambiguous, Bool.and_eq_true] at hu
  exact hu.2

end

/-- The opcode field of the reference layout is the low byte of word 0 (R112). -/
theorem opcodeIn_reference_iff (W : CmdWord) (o : Opcode) :
    Layout.reference.opcodeIn W = some o ↔ o.code = W.w0.extractLsb' 0 8 := by
  have hopc : W.getField Layout.reference.opc = (W.w0.extractLsb' 0 8).setWidth 64 := by
    apply BitVec.eq_of_getLsbD_eq
    intro i hi
    rw [getLsbD_getField, BitVec.getLsbD_setWidth, BitVec.getLsbD_extractLsb', Bool.and_assoc]
    rfl
  rw [Layout.opcodeIn_eq_some_iff (by decide +kernel), hopc, Layout.reference_opcode]
  constructor
  · intro h
    exact (by simpa using congrArg (BitVec.setWidth 8) h : W.w0.extractLsb' 0 8 = o.code).symm
  · exact fun h => h ▸ rfl

end Sys2Proof

namespace Sys2Proof.Machine

open Sys2Proof

/-- Settles O3: the tables by evaluation, the names by the codes being one each. -/
theorem opcodeTable : Obligations.OpcodeTable := by
  refine ⟨by decide +kernel, by decide, by decide, fun b => ⟨rfl, rfl, rfl, rfl⟩, fun v => ⟨rfl, rfl⟩, opcodeIn_reference_iff,
    reference_admissible, reference_unambiguous, reference_holdsOperands, fun L b v => ⟨rfl, rfl, rfl, rfl, rfl, rfl⟩,
    fun L h => ⟨Layout.opcodeIn_eq_some_iff h, Layout.statusOf_eq_some_iff h, Layout.faultOf_eq_some_iff h⟩⟩

end Sys2Proof.Machine
end

section
/-! The encoder kind by kind (40_cmdgen.md R171-R209).  Each kind's rule is one `headWord`, the operands at their fields' places;
ENC_BUILD answers it, and a command answers its finalized word, which is the command's encoding. -/

namespace Sys2Proof

/-- The header `build` writes for a request (R172). -/
abbrev BuildReq.hdr (req : BuildReq) (dup : Bool) (dir dsz : BitVec 2) : CmdHdr :=
  ⟨dir, req.hwOnly, if dup then 1 else 0, dsz, req.msize⟩

end Sys2Proof

namespace Sys2Proof.Machine

open Sys2Proof

/-! ### The words the rules write -/

section
variable {L : Layout}

theorem finalize_headWord (ha : L.admissible = true) (hu : L.unambiguous = true) (o : Opcode) (h : CmdHdr)
    (src dst aux0 aux1 aux2 : BitVec 56) (st : Stamp) :
    finalize L (headWord L o h src dst aux0 aux1 aux2) st.odd st.slot st.seq st.dealloc st.xsum
      = joinParts L ⟨L.opcode o, h, src, dst, aux0, aux1, aux2, st⟩ :=
  finalize_builtWord ha hu ⟨L.opcode o, h, src, dst, aux0, aux1, aux2, st⟩

/-- The fields of a header's word, whatever the stamp. -/
abbrev headParts (L : Layout) (o : Opcode) (h : CmdHdr) (src dst aux0 aux1 aux2 : BitVec 56) : Parts :=
  ⟨L.opcode o, h, src, dst, aux0, aux1, aux2, ⟨0, 0, 0, none, 0⟩⟩

theorem builtOperands_append (req : BuildReq) (o : Opcode) (dir : Dir) (dsz : BitVec 2) (dup : Bool)
    (src dst aux0 aux1 aux2 : BitVec 56) :
    builtOperands L req o dir dsz dup src dst ++ auxOperands L (aux0.setWidth 64) (aux1.setWidth 64) (aux2.setWidth 64)
      = (headParts L o (req.hdr dup dir.code dsz) src dst aux0 aux1 aux2).builtFields L := by
  cases dup <;> rfl

/-- The word of a passthrough, with its sub-fields written, is the operands at their places (R200, R204). -/
theorem setField_aux_builtWord (hw : L.eightWords = true) (hu : L.unambiguous = true) (req : BuildReq) (o : Opcode) (dir : Dir)
    (dsz : BitVec 2) (dup : Bool) (src dst aux0 aux1 aux2 : BitVec 56) :
    (((builtWord L req o dir dsz dup src dst).setField L.aux0 (aux0.setWidth 64)).setField L.aux1 (aux1.setWidth 64)).setField
      L.aux2 (aux2.setWidth 64) = headWord L o (req.hdr dup dir.code dsz) src dst aux0 aux1 aux2 := by
  have h := builtWord_eq_writeFields hw hu (headParts L o (req.hdr dup dir.code dsz) src dst aux0 aux1 aux2)
  rw [← builtOperands_append, writeFields_append] at h
  exact h.symm

/-- Writing 0 to a field whose bits are 0 changes nothing. -/
theorem setField_zero {W : CmdWord} {f : Field} (hf : f.present = true) (h : ∀ j k, f.holds j k → W.bit j k = false) :
    W.setField f 0 = W := by
  apply CmdWord.ext_bit
  intro j k _ _
  rw [CmdWord.bit_setField _ _ hf]
  split
  next hh => rw [h j k hh]; exact BitVec.getLsbD_zero
  next => rfl

/-- The word every other kind starts and ends with: sub-fields 0 (R172, 30_encoding.md R113). -/
theorem builtWord_eq_headWord (hw : L.eightWords = true) (hu : L.unambiguous = true) (req : BuildReq) (o : Opcode) (dir : Dir)
    (dsz : BitVec 2) (dup : Bool) (src dst : BitVec 56) :
    builtWord L req o dir dsz dup src dst = headWord L o (req.hdr dup dir.code dsz) src dst 0 0 0 := by
  let p := headParts L o (req.hdr dup dir.code dsz) src dst 0 0 0
  have hp := builtFields_pairwise hu p
  have hl := builtFields_present hw p
  have hsplit : p.builtFields L = builtOperands L req o dir dsz dup src dst ++ auxOperands L 0 0 0 :=
    (builtOperands_append req o dir dsz dup src dst 0 0 0).symm
  rw [hsplit, List.map_append, List.pairwise_append] at hp
  rw [hsplit, List.forall_mem_append] at hl
  have free {f : Field} (hf : f ∈ L.auxFields) {V : CmdWord}
      (hV : ∀ j k, f.holds j k → V.bit j k = (builtWord L req o dir dsz dup src dst).bit j k) : V.setField f 0 = V := by
    refine setField_zero (Layout.present_of_mem hw (by simp [Layout.allFields, hf])) fun j k hh => (hV j k hh).trans ?_
    have hn : ∀ q ∈ builtOperands L req o dir dsz dup src dst, ¬ q.1.holds j k := fun q hq hq' =>
      Field.not_holds_of_apart (hp.2.2 q.1 (List.mem_map_of_mem hq) f hf) hq' hh
    exact (writeFields_bit_of_not_holds hl.1 hn CmdWord.zero).trans
      (by rw [CmdWord.bit, CmdWord.get_zero]; exact BitVec.getLsbD_zero)
  have e := setField_aux_builtWord hw hu req o dir dsz dup src dst 0 0 0
  have z : (0 : BitVec 56).setWidth 64 = (0 : Word) := rfl
  rw [z, free (f := L.aux0) (by simp [Layout.auxFields]) fun _ _ _ => rfl,
    free (f := L.aux1) (by simp [Layout.auxFields]) fun _ _ _ => rfl,
    free (f := L.aux2) (by simp [Layout.auxFields]) fun _ _ _ => rfl] at e
  exact e

/-- In the reference layout the word is the very one R172 and R113 write. -/
theorem headWord_reference (req : BuildReq) (o : Opcode) (dir : Dir) (dsz : BitVec 2) (dup : Bool)
    (src dst aux0 aux1 aux2 : BitVec 56) :
    headWord Layout.reference o (req.hdr dup dir.code dsz) src dst aux0 aux1 aux2 =
      ⟨hdrWord o.code dir.code req.hwOnly dup dsz req.msize, src.setWidth 64, dst.setWidth 64, aux0.setWidth 64, aux1.setWidth 64,
        aux2.setWidth 64, 0, 0⟩ := by
  obtain ⟨hw, -⟩ := Layout.admissible_iff.1 reference_admissible
  have h := (builtWord_eq_headWord hw reference_unambiguous req o dir dsz dup src dst).symm.trans (builtWord_eq ..)
  have field (v : BitVec 56) : insertBits 0 0 56 (v.setWidth 64) ||| 0 = v.setWidth 64 := by
    apply BitVec.eq_of_getLsbD_eq
    intro i hi
    rw [BitVec.getLsbD_or, getLsbD_place, BitVec.getLsbD_setWidth]
    by_cases hv : i < 56
    · simp [hv, hi]
    · simp [hv, BitVec.getLsbD_of_ge v i (by omega)]
  have h0 : (headWord Layout.reference o (req.hdr dup dir.code dsz) src dst aux0 aux1 aux2).w0
      = hdrWord o.code dir.code req.hwOnly dup dsz req.msize :=
    (rfl : _ = (headWord Layout.reference o (req.hdr dup dir.code dsz) src dst 0 0 0).w0).trans
      (congrArg CmdWord.w0 h)
  exact CmdWord.mk.injEq .. ▸ ⟨h0, field src, field dst, field aux0, field aux1, field aux2, rfl, rfl⟩

end

end Sys2Proof.Machine
end

section
/-! The kinds of request one by one (40_cmdgen.md R171-R224): which direction each asks for, the word it answers, and with what
the checks of its lengths fail. -/

namespace Sys2Proof.Machine

open Sys2Proof

/-! ### Direction and size (R173) -/

/-- A full page has the size code 3 (30_encoding.md R120). -/
theorem lenOf_eq_page_iff (z : BitVec 2) : lenOf z = 4096 ↔ z = 3 := by revert z; decide

/-- The request carries a transfer of the size code `z` in the direction, and nothing else. -/
def Carries (req : BuildReq) : Dir → BitVec 2 → Prop
  | .none, z => NoLength req ∧ z = 0
  | .h2d, z => req.d2hLen = 0 ∧ req.h2dLen = lenOf z
  | .d2h, z => req.h2dLen = 0 ∧ req.d2hLen = lenOf z

/-- The length of a transfer. -/
def Dir.len : Dir → BitVec 2 → Nat
  | .none, _ => 0
  | _, z => lenOf z

theorem dirsize_of_carries {req : BuildReq} {d : Dir} {z : BitVec 2} (h : Carries req d z) {need : Option Dir}
    (hn : need = none ∨ need = some d) : dirsize req need = .ok ⟨d, z, d.len z⟩ := by
  cases d with
  | none => obtain ⟨h, rfl⟩ := h; exact dirsize_none req need h hn
  | h2d => exact dirsize_h2d req need z h.1 h.2 hn
  | d2h => exact dirsize_d2h req need z h.1 h.2 hn

theorem dirsize_of_carries_other {req : BuildReq} {d d' : Dir} {z : BitVec 2} (h : Carries req d z) (hd : d' ≠ d) :
    dirsize req (some d') = .error .badDir := by
  cases d with
  | none => obtain ⟨⟨h1, h2⟩, rfl⟩ := h; simp [dirsize, h1, h2, hd]
  | h2d => obtain ⟨h1, h2⟩ := h; simp [dirsize, h1, h2, lenOf_ne_zero, sizeCode_lenOf, hd]
  | d2h => obtain ⟨h1, h2⟩ := h; simp [dirsize, h1, h2, lenOf_ne_zero, sizeCode_lenOf, hd]

theorem dirsize_of_both {req : BuildReq} (h : req.h2dLen ≠ 0 ∧ req.d2hLen ≠ 0) (need : Option Dir) :
    dirsize req need = .error .bidir := if_pos h

theorem sizeCode_eq_none_iff (n : Nat) : sizeCode n = none ↔ ¬ (n = 512 ∨ n = 1024 ∨ n = 2048 ∨ n = 4096) := by
  unfold sizeCode
  split_ifs <;> simp_all

theorem exists_lenOf {n : Nat} (h : n = 512 ∨ n = 1024 ∨ n = 2048 ∨ n = 4096) : ∃ z, n = lenOf z := by
  rcases h with rfl | rfl | rfl | rfl
  · exact ⟨0, rfl⟩
  · exact ⟨1, rfl⟩
  · exact ⟨2, rfl⟩
  · exact ⟨3, rfl⟩

theorem dirsize_of_unsized {req : BuildReq} (hb : ¬ (req.h2dLen ≠ 0 ∧ req.d2hLen ≠ 0)) (hl : req.h2dLen + req.d2hLen ≠ 0)
    (hs : sizeCode (req.h2dLen + req.d2hLen) = none) (need : Option Dir) : dirsize req need = .error .badSize := by
  rw [dirsize, if_neg hb]
  simp only [hs]
  by_cases h1 : req.h2dLen = 0
  · have h2 : req.d2hLen ≠ 0 := by omega
    rw [if_neg (not_not.2 h1), if_pos h2]
  · rw [if_pos h1]

/-- The transfer a header's direction and size stand for (30_encoding.md R119, R120). -/
theorem carries_withHdr (req : BuildReq) (h : CmdHdr) :
    (h.dir = 0 → Carries (req.withHdr h) .none 0) ∧ (h.dir = 1 → Carries (req.withHdr h) .h2d h.dsize)
      ∧ (h.dir = 2 → Carries (req.withHdr h) .d2h h.dsize) := by
  refine ⟨fun hd => ?_, fun hd => ?_, fun hd => ?_⟩ <;> simp [Carries, NoLength, BuildReq.withHdr, CmdHdr.len, lenOf, hd]

/-- `DIR = 3` stands for both lengths (R119). -/
theorem dirsize_withHdr_both (req : BuildReq) {h : CmdHdr} (hd : h.dir = 3) (need : Option Dir) :
    dirsize (req.withHdr h) need = .error .bidir := by
  refine dirsize_of_both ?_ need
  have hz := lenOf_ne_zero h.dsize
  rw [lenOf] at hz
  simp [BuildReq.withHdr, CmdHdr.len, hd, hz]

/-- A direction that is not the one asked for (R173). -/
theorem dirsize_withHdr_other (req : BuildReq) {h : CmdHdr} {d : Dir} (hd : h.dir ≠ d.code) :
    dirsize (req.withHdr h) (some d) = .error (if h.dir = 3 then .bidir else .badDir) := by
  obtain ⟨c0, c1, c2⟩ := carries_withHdr req h
  have other {d' : Dir} (hd' : h.dir = d'.code) {z : BitVec 2} (hc : Carries (req.withHdr h) d' z) (h3 : h.dir ≠ 3) :
      dirsize (req.withHdr h) (some d) = .error (if h.dir = 3 then .bidir else .badDir) := by
    rw [if_neg h3]
    exact dirsize_of_carries_other hc fun e => hd (e ▸ hd')
  have hcases : h.dir = 0 ∨ h.dir = 1 ∨ h.dir = 2 ∨ h.dir = 3 := by generalize h.dir = x; revert x; decide
  rcases hcases with h0 | h1 | h2 | h3
  · exact other (d' := .none) h0 (c0 h0) (by simp [h0])
  · exact other (d' := .h2d) h1 (c1 h1) (by simp [h1])
  · exact other (d' := .d2h) h2 (c2 h2) (by simp [h2])
  · rw [if_pos h3]; exact dirsize_withHdr_both req h3 _

/-! ### The kinds (R171) -/

/-- What `build` runs for a kind of 30_encoding.md R162. -/
def buildKind (L : Layout) (c : Cfg) (req : BuildReq) : Nat → Except OpError CmdWord
  | 0 => buildRead L c req
  | 1 => buildWrite L c req
  | 2 => buildNoData L c req .trim req.lba (req.count.setWidth 56)
  | 3 => buildNoData L c req .getReg req.reg 0
  | 4 => buildNoData L c req .putReg req.value req.reg
  | 5 => buildGetParams L c req
  | 6 => buildSetParams L c req
  | 7 => buildPassthrough L req
  | 8 => buildNoData L c req .cancel (req.target.setWidth 56) 0
  | 9 => buildNoData L c req .reset 0 0
  | 10 => buildNoData L c req .null 0 0
  | 11 => buildNoData L c req .sataReinit 0 0
  | 12 => buildNoData L c req .shutdown 0 0
  | 13 => buildSeqAdvance L c req
  | _ => buildRaw L c req

theorem buildWord_eq_buildKind (L : Layout) (c : Cfg) {req : BuildReq} (hk : req.kind.toNat ≤ 14) (hm : req.msize ≠ 3) :
    buildWord L c req = buildKind L c req req.kind.toNat := by
  have key {k : Byte} : (req.kind = k) = (req.kind.toNat = k.toNat) := propext BitVec.toNat_inj.symm
  simp only [buildWord, if_neg (Nat.not_lt.2 hk), if_neg hm, key, kRead, kWrite, kTrim, kGetReg, kPutReg, kGetParams, kSetParams,
    kPassthrough, kCancel, kReset, kNull, kSataReinit, kShutdown, kSeqAdvance]
  generalize req.kind.toNat = n at hk
  interval_cases n <;> rfl

/-- The direction a kind asks for (sections 2 and 3); RAW takes any. -/
def kindNeed : Nat → Option Dir
  | 0 | 5 => some .d2h
  | 1 | 6 => some .h2d
  | 14 => none
  | _ => some .none

/-- The request has passed the checks before its lengths, and these are to be checked against `need` (R171, R200, R209). -/
def Asks (L : Layout) (req : BuildReq) (need : Option Dir) : Prop :=
  req.msize ≠ 3 ∧ (req.kind.toNat < 14 ∧ req.kind ≠ 7 ∧ need = kindNeed req.kind.toNat
    ∨ req.kind = 7 ∧ PassthroughForm req.cdb ∧ (∃ d, protoDir (cdbProtocol req.cdb) = .ok d ∧ need = some d)
    ∨ req.kind = 14 ∧ (∃ o, L.opcodeOf req.rawOpcode = some o ∧ o.builtByRaw = true) ∧ need = none)

/-- The error of the lengths is the error of the request. -/
theorem buildWord_of_dirsize_error {L : Layout} (c : Cfg) {req : BuildReq} {need : Option Dir} {e : OpError} (h : Asks L req need)
    (he : dirsize req need = .error e) : buildWord L c req = .error e := by
  obtain ⟨hm, ⟨hk, hk7, rfl⟩ | ⟨hk, hf, d, hd, rfl⟩ | ⟨hk, ⟨o, ho, hr⟩, rfl⟩⟩ := h
  · rw [buildWord_eq_buildKind L c (by omega) hm]
    have hk7 : req.kind.toNat ≠ 7 := fun e => hk7 (BitVec.eq_of_toNat_eq e)
    generalize req.kind.toNat = n at hk hk7 he
    obtain hbelow | habove := Nat.lt_or_gt_of_ne hk7
    all_goals
      interval_cases n
      all_goals
        simp only [kindNeed] at he
        simp only [buildKind, buildRead, buildWrite, buildNoData, buildGetParams, buildSetParams, buildSeqAdvance, he]
  · rw [buildWord_eq_buildKind L c (by rw [hk]; decide) hm, hk]
    change buildPassthrough L req = _
    rw [buildPassthrough, if_neg (by simp [(checkForm_iff _).2 hf])]
    simp only [hd, he]
  · rw [buildWord_eq_buildKind L c (by rw [hk]; decide) hm, hk]
    change buildRaw L c req = _
    simp only [buildRaw, ho, hr, he, Bool.true_eq_false, if_false]

/-! ### The words (sections 2 to 5) -/

section
variable {L : Layout} (c : Cfg) {req : BuildReq} {z : BitVec 2} (hw : L.eightWords = true) (hu : L.unambiguous = true)
include hw hu

theorem buildRead_of_carries (h : Carries req .d2h z) :
    buildRead L c req = .ok (headWord L (if z = 3 then .pageRead else .extRead) (req.hdr c.dupcheck 2 z) req.lba
      ((buf req.coreBuf).setWidth 56 ||| (blockCount (lenOf z)).setWidth 56 <<< 8) 0 0 0) := by
  simp only [buildRead, dirsize_of_carries h (.inr rfl), builtWord_eq_headWord hw hu, Dir.len, lenOf_eq_page_iff]
  rfl

theorem buildWrite_of_carries (h : Carries req .h2d z) :
    buildWrite L c req = .ok (headWord L (if z = 3 then .pageWrite else .extWrite) (req.hdr c.dupcheck 1 z)
      ((buf req.wbuf0).setWidth 56 ||| (blockCount (lenOf z)).setWidth 56 <<< 8 ||| (buf req.wbuf1).setWidth 56 <<< 16
        ||| (buf req.wbuf2).setWidth 56 <<< 24) req.lba 0 0 0) := by
  simp only [buildWrite, dirsize_of_carries h (.inr rfl), builtWord_eq_headWord hw hu, Dir.len, lenOf_eq_page_iff]
  rfl

theorem buildNoData_of_carries (o : Opcode) (src dst : BitVec 56) (h : Carries req .none 0) :
    buildNoData L c req o src dst = .ok (headWord L o (req.hdr c.dupcheck 0 0) src dst 0 0 0) := by
  simp only [buildNoData, dirsize_of_carries h (.inr rfl), builtWord_eq_headWord hw hu]
  rfl

theorem buildGetParams_of_carries (h : Carries req .d2h z) :
    buildGetParams L c req = .ok (headWord L .getParams (req.hdr c.dupcheck 2 z) (req.param.setWidth 56)
      ((buf req.coreBuf).setWidth 56) 0 0 0) := by
  simp only [buildGetParams, dirsize_of_carries h (.inr rfl), builtWord_eq_headWord hw hu]
  rfl

theorem buildSetParams_of_carries (h : Carries req .h2d z) :
    buildSetParams L c req = .ok (headWord L .setParams (req.hdr c.dupcheck 1 z) ((buf req.wbuf0).setWidth 56)
      (req.param.setWidth 56) 0 0 0) := by
  simp only [buildSetParams, dirsize_of_carries h (.inr rfl), builtWord_eq_headWord hw hu]
  rfl

theorem buildSeqAdvance_of_carries (h : Carries req .none 0) (h0 : req.seqCount ≠ 0) (h32 : req.seqCount < 2 ^ 32) :
    buildSeqAdvance L c req = .ok (headWord L .seqAdvance (req.hdr c.dupcheck 0 0) (BitVec.ofNat 56 req.seqCount) 0 0 0 0) := by
  have hs : ¬ (req.seqCount = 0 ∨ 2 ^ 32 ≤ req.seqCount) := by omega
  simp only [buildSeqAdvance, dirsize_of_carries h (.inr rfl), builtWord_eq_headWord hw hu, if_neg hs]
  rfl

theorem buildPassthrough_of_carries {d : Dir} (hf : PassthroughForm req.cdb) (hd : protoDir (cdbProtocol req.cdb) = .ok d)
    (h : Carries req d z) :
    buildPassthrough L req = .ok (headWord L .devPassthru (req.hdr false d.code z) ((buf req.wbuf0).setWidth 56)
      ((buf req.coreBuf).setWidth 56) (embedAux0 req.cdb) (embedAux1 req.cdb) (embedAux2 req.cdb)) := by
  rw [buildPassthrough, if_neg (by simp [(checkForm_iff _).2 hf])]
  simp only [hd, dirsize_of_carries h (.inr rfl), setField_aux_builtWord hw hu]

theorem buildRaw_of_carries {o : Opcode} {d : Dir} (ho : L.opcodeOf req.rawOpcode = some o) (hr : o.builtByRaw = true)
    (h : Carries req d z) :
    buildRaw L c req = .ok (headWord L o (req.hdr c.dupcheck d.code z) req.rawSrc req.rawDst 0 0 0) := by
  simp only [buildRaw, ho, hr, dirsize_of_carries h (.inl rfl), builtWord_eq_headWord hw hu, Bool.true_eq_false, if_false]

end

/-! ### What the two encoder operations answer -/

theorem State.builds_of_buildWord {s : State} {req : BuildReq} {o : Opcode} {d : Dir} {z : BitVec 2} {dup : Bool}
    {src dst aux0 aux1 aux2 : BitVec 56}
    (h : buildWord s.params.layout s.params.cfg req
      = .ok (headWord s.params.layout o (req.hdr dup d.code z) src dst aux0 aux1 aux2)) :
    s.Builds req o o.code d.code z dup src dst aux0 aux1 aux2 := by
  refine ⟨_, ?_, rfl, fun hL => ?_⟩
  · change execEncBuild req s = _
    rw [execEncBuild_eq, h]
  · rw [hL]; exact headWord_reference ..

theorem State.execEncBuild_of_error {s : State} {req : BuildReq} {e : OpError}
    (h : buildWord s.params.layout s.params.cfg req = .error e) :
    exec (.encBuild req) s = .next (s.answered (Response.error e)) := by
  change execEncBuild req s = _
  rw [execEncBuild_eq, h]

theorem State.encodeCommand_of_ok {s : State} {h g : CmdHdr} {st : Stamp} {req : BuildReq} {o : Opcode}
    {src dst aux0 aux1 aux2 : BitVec 56} (ha : s.params.layout.admissible = true) (hu : s.params.layout.unambiguous = true)
    (hb : buildWord s.params.layout s.params.cfg (req.withHdr h)
      = .ok (headWord s.params.layout o g src dst aux0 aux1 aux2)) :
    s.encodeCommand h st req = .next (s.answered (Response.ofWord (joinParts s.params.layout
      ⟨s.params.layout.opcode o, g, src, dst, aux0, aux1, aux2, st⟩))) := by
  rw [State.encodeCommand_eq, hb]
  simp only [finalize_headWord ha hu]

theorem State.encodeCommand_of_error {s : State} {h : CmdHdr} {st : Stamp} {req : BuildReq} {e : OpError}
    (hb : buildWord s.params.layout s.params.cfg (req.withHdr h) = .error e) :
    s.encodeCommand h st req = .next (s.answered (Response.error e)) := by
  rw [State.encodeCommand_eq, hb]

end Sys2Proof.Machine
end

section
/-! ENC_BUILD of every kind and its rejections (40_cmdgen.md R171-R224, 60_exceptions.md R406). -/

namespace Sys2Proof.Machine

open Sys2Proof

section
variable {L : Layout} {c : Cfg} {req : BuildReq}

/-- A request of the kind `k` that has a size runs the kind's own rule. -/
theorem buildWord_of_kind {k : Byte} (hk : req.kind = k) (h14 : k.toNat ≤ 14) (hm : req.msize ≠ 3) :
    buildWord L c req = buildKind L c req k.toNat :=
  hk ▸ buildWord_eq_buildKind L c (hk ▸ h14) hm

end

theorem blockCount_lenOf (z : BitVec 2) :
    (blockCount (lenOf z)).setWidth 56 <<< 8 = (if z = 3 then 0 else (1 : BitVec 56) <<< z.toNat) <<< 8 := by
  revert z; decide

/-- Settles O23: the words of R175-R188 for each of the four sizes. -/
theorem encBuildTransfers : Obligations.EncBuildTransfers := by
  intro s req z ha hu hm
  obtain ⟨hw, -⟩ := Layout.admissible_iff.1 ha
  refine ⟨fun h1 h2 => ?_, fun h1 h2 => ?_⟩
  · have hc : Carries req .d2h z := ⟨h1, h2⟩
    refine ⟨fun hk => ?_, fun hk => ?_⟩
    · have h := (buildWord_of_kind hk (by decide) hm).trans (buildRead_of_carries s.params.cfg hw hu hc)
      rw [blockCount_lenOf] at h
      have hb := State.builds_of_buildWord (d := .d2h) h
      split_ifs at hb ⊢ <;> exact hb
    · exact State.builds_of_buildWord (d := .d2h)
        ((buildWord_of_kind hk (by decide) hm).trans (buildGetParams_of_carries s.params.cfg hw hu hc))
  · have hc : Carries req .h2d z := ⟨h1, h2⟩
    refine ⟨fun hk => ?_, fun hk => ?_⟩
    · have h := (buildWord_of_kind hk (by decide) hm).trans (buildWrite_of_carries s.params.cfg hw hu hc)
      rw [blockCount_lenOf] at h
      have hb := State.builds_of_buildWord (d := .h2d) h
      split_ifs at hb ⊢ <;> exact hb
    · exact State.builds_of_buildWord (d := .h2d)
        ((buildWord_of_kind hk (by decide) hm).trans (buildSetParams_of_carries s.params.cfg hw hu hc))

/-- Settles O24: the words of the kinds that carry no data. -/
theorem encBuildControls : Obligations.EncBuildControls := by
  intro s req ha hu hm hn
  obtain ⟨hw, -⟩ := Layout.admissible_iff.1 ha
  have hc : Carries req .none 0 := ⟨hn, rfl⟩
  have noData {k : Byte} {o : Opcode} {src dst : BitVec 56} (h14 : k.toNat ≤ 14)
      (hb : buildKind s.params.layout s.params.cfg req k.toNat = buildNoData s.params.layout s.params.cfg req o src dst)
      (hk : req.kind = k) : s.Builds req o o.code 0 0 s.params.cfg.dupcheck src dst 0 0 0 :=
    State.builds_of_buildWord (d := .none) ((buildWord_of_kind hk h14 hm).trans
      (hb.trans (buildNoData_of_carries s.params.cfg hw hu o src dst hc)))
  refine ⟨noData (by decide) rfl, noData (by decide) rfl, noData (by decide) rfl, noData (by decide) rfl, noData (by decide) rfl,
    noData (by decide) rfl, noData (by decide) rfl, noData (by decide) rfl, fun hk h0 h32 => ?_⟩
  exact State.builds_of_buildWord (d := .none)
    ((buildWord_of_kind hk (by decide) hm).trans (buildSeqAdvance_of_carries s.params.cfg hw hu hc h0 h32))

/-! ### Passthrough and RAW -/

theorem mem_rawOpcodes_iff (o : Opcode) : o ∈ rawOpcodes ↔ o.builtByRaw = true := by cases o <;> decide

/-- The three protocols and their directions (40_cmdgen.md R203). -/
theorem protoDir_cases (p : BitVec 4) :
    (p = 3 ∧ protoDir p = .ok .none) ∨ (p = 4 ∧ protoDir p = .ok .d2h) ∨ (p = 5 ∧ protoDir p = .ok .h2d)
      ∨ (p ∉ ([3, 4, 5] : List (BitVec 4)) ∧ protoDir p = .error .badProtocol) := by
  revert p; decide

/-- Settles O25: the words of R200-R204 and R209. -/
theorem encBuildPassthroughAndRaw : Obligations.EncBuildPassthroughAndRaw := by
  intro s req z ha hu hm
  obtain ⟨hw, hh, -⟩ := Layout.admissible_iff.1 ha
  refine ⟨fun hk hf => ?_, fun hk o ho hreq => ?_⟩
  · have pt {d : Dir} {z : BitVec 2} (hd : protoDir (cdbProtocol req.cdb) = .ok d) (hc : Carries req d z) := by
      have h := (buildWord_of_kind (c := s.params.cfg) hk (by decide) hm).trans (buildPassthrough_of_carries hw hu hf hd hc)
      obtain ⟨e0, e1, e2⟩ := embed_eq req.cdb
      rw [e0, e1, e2] at h
      exact State.builds_of_buildWord h
    refine ⟨fun hp hn => ?_, fun hp h1 h2 => ?_, fun hp h1 h2 => ?_⟩
    · exact pt (d := .none) ((congrArg protoDir hp).trans rfl) ⟨hn, rfl⟩
    · exact pt (d := .d2h) ((congrArg protoDir hp).trans rfl) ⟨h1, h2⟩
    · exact pt (d := .h2d) ((congrArg protoDir hp).trans rfl) ⟨h1, h2⟩
  · have hr := (mem_rawOpcodes_iff o).1 ho
    have hop : s.params.layout.opcodeOf req.rawOpcode = some o :=
      (Layout.opcodeOf_eq_some_iff (Layout.codesFit_of_unambiguous hu) _ _).2 hreq.symm
    have raw {d : Dir} {z : BitVec 2} (hc : Carries req d z) :
        s.Builds req o req.rawOpcode d.code z s.params.cfg.dupcheck req.rawSrc req.rawDst 0 0 0 := by
      obtain ⟨W, hW, hword, href⟩ := State.builds_of_buildWord
        ((buildWord_of_kind hk (by decide) hm).trans (buildRaw_of_carries s.params.cfg hw hu hop hr hc))
      refine ⟨W, hW, hword, fun hL => ?_⟩
      rw [hreq, hL, Layout.reference_opcode]
      exact href hL
    exact ⟨fun hn => raw (d := .none) ⟨hn, rfl⟩, fun h1 h2 => raw (d := .h2d) ⟨h1, h2⟩, fun h1 h2 => raw (d := .d2h) ⟨h1, h2⟩⟩

/-! ### Rejections -/

/-- Valid lengths on at most one side are a transfer in one direction. -/
theorem exists_carries {req : BuildReq} (hb : ¬ (req.h2dLen ≠ 0 ∧ req.d2hLen ≠ 0))
    (hl : req.h2dLen + req.d2hLen = 0 ∨ ∃ z, req.h2dLen + req.d2hLen = lenOf z) :
    ∃ d z, Carries req d z ∧ (req.d2hLen = 0 → d ≠ .d2h) ∧ (req.h2dLen = 0 → d ≠ .h2d)
      ∧ (req.h2dLen + req.d2hLen ≠ 0 → d ≠ .none) := by
  by_cases h1 : req.h2dLen = 0
  · by_cases h2 : req.d2hLen = 0
    · exact ⟨.none, 0, ⟨⟨h1, h2⟩, rfl⟩, by simp, by simp, fun h => absurd (by omega) h⟩
    · obtain h | ⟨z, hz⟩ := hl
      · omega
      · exact ⟨.d2h, z, ⟨h1, by omega⟩, fun h => absurd h h2, by simp, by simp⟩
  · obtain h | ⟨z, hz⟩ := hl
    · omega
    · exact ⟨.h2d, z, ⟨by omega, by omega⟩, by simp, fun h => absurd h h1, by simp⟩

/-- Settles O26: the checks in their order; from the lengths on, `dirsize` decides. -/
theorem encBuildRejects : Obligations.EncBuildRejects := by
  intro s req hfit err len both sized rawOk proto
  have raw_iff : rawOk ↔ ∃ o, s.params.layout.opcodeOf req.rawOpcode = some o ∧ o.builtByRaw = true := by
    simp only [Layout.opcodeOf_eq_some_iff hfit, rawOk, mem_rawOpcodes_iff, and_comm, eq_comm]
  refine ⟨fun h => State.execEncBuild_of_error (if_pos h), fun h hm => ?_, fun hm hk hr => ?_, fun hm hk hf => ?_,
    fun hm hk hf hp => ?_, fun hm hask => ?_⟩
  · exact State.execEncBuild_of_error (by rw [buildWord, if_neg (by omega), if_pos hm])
  · refine State.execEncBuild_of_error ((buildWord_of_kind hk (by decide) hm).trans ?_)
    rw [raw_iff] at hr
    change buildRaw _ _ _ = _
    rw [buildRaw]
    split
    next => rfl
    next o ho => rw [if_pos (Bool.eq_false_iff.2 fun hb => hr ⟨o, ho, hb⟩)]
  · refine State.execEncBuild_of_error ((buildWord_of_kind hk (by decide) hm).trans ?_)
    exact if_pos (Bool.eq_false_iff.2 fun h => hf ((checkForm_iff _).1 h))
  · refine State.execEncBuild_of_error ((buildWord_of_kind hk (by decide) hm).trans ?_)
    change buildPassthrough _ _ = _
    rw [buildPassthrough, if_neg (by simp [(checkForm_iff _).2 hf])]
    have mem {v : BitVec 4} (h : proto = v) (hv : v ∈ ([3, 4, 5] : List (BitVec 4))) : proto ∈ ([3, 4, 5] : List (BitVec 4)) :=
      h.symm ▸ hv
    rcases protoDir_cases proto with ⟨h, -⟩ | ⟨h, -⟩ | ⟨h, -⟩ | ⟨-, he⟩
    · exact absurd (mem h (by decide)) hp
    · exact absurd (mem h (by decide)) hp
    · exact absurd (mem h (by decide)) hp
    · have he : protoDir (cdbProtocol req.cdb) = _ := he
      simp only [he]
  · have dir {d : Dir} (hd : protoDir proto = .ok d) (hk : req.kind = 7) : Asks s.params.layout req (some d) := by
      refine ⟨hm, .inr (.inl ⟨hk, ?_, d, hd, rfl⟩)⟩
      rcases hask with ⟨-, h⟩ | ⟨h, -⟩ | ⟨-, h, -⟩
      · exact absurd hk h
      · simp [hk] at h
      · exact h
    have kind {k : Byte} (hk : req.kind = k) (h14 : k.toNat < 14 ∧ k ≠ 7) : Asks s.params.layout req (kindNeed k.toNat) :=
      by
      subst hk
      exact ⟨hm, .inl ⟨h14.1, h14.2, rfl⟩⟩
    have asks : ∃ need, Asks s.params.layout req need := by
      rcases hask with h | ⟨hk, hr⟩ | ⟨hk, hf, hp⟩
      · exact ⟨_, kind rfl h⟩
      · exact ⟨_, hm, .inr (.inr ⟨hk, raw_iff.1 hr, rfl⟩)⟩
      · rcases protoDir_cases proto with ⟨-, h⟩ | ⟨-, h⟩ | ⟨-, h⟩ | ⟨h, -⟩
        · exact ⟨_, dir h hk⟩
        · exact ⟨_, dir h hk⟩
        · exact ⟨_, dir h hk⟩
        · exact absurd hp h
    have of_dirsize {need : Option Dir} {e : OpError} (ha : Asks s.params.layout req need) (he : dirsize req need = .error e) :
        err e := State.execEncBuild_of_error (buildWord_of_dirsize_error _ ha he)
    have wrong {d d' : Dir} {z : BitVec 2} (ha : Asks s.params.layout req (some d)) (hc : Carries req d' z) (hd : d' ≠ d) :
        err .badDir := of_dirsize ha (dirsize_of_carries_other hc (Ne.symm hd))
    have sizes (h : len = 0 ∨ sized) : len = 0 ∨ ∃ z, len = lenOf z := h.imp_right exists_lenOf
    obtain ⟨need, ha⟩ := asks
    refine ⟨fun hb => of_dirsize ha (dirsize_of_both hb _), fun hb h0 hs => of_dirsize ha
      (dirsize_of_unsized hb h0 ((sizeCode_eq_none_iff _).2 hs) _), fun h0 hl hk => ?_, fun h0 hl hk => ?_, fun hb hs hk => ?_,
      fun hb hs hk hp => ?_, fun h0 hl hk hp => ?_, fun h0 hl hk hp => ?_, fun h0 hk hc => ?_⟩
    · obtain ⟨d, z, hc, hd, -⟩ := exists_carries (fun h => h.2 h0) (sizes hl)
      rcases hk with hk | hk <;> exact wrong (kind hk (by decide)) hc (hd h0)
    · obtain ⟨d, z, hc, -, hd, -⟩ := exists_carries (fun h => h.1 h0) (sizes hl)
      rcases hk with hk | hk <;> exact wrong (kind hk (by decide)) hc (hd h0)
    · obtain ⟨d, z, hc, -, -, hd⟩ := exists_carries hb (sizes (.inr hs))
      have hd : d ≠ .none := hd (by rcases hs with h | h | h | h <;> omega)
      simp only [List.mem_cons, List.not_mem_nil, or_false] at hk
      rcases hk with hk | hk | hk | hk | hk | hk | hk | hk | hk <;> exact wrong (kind hk (by decide)) hc hd
    · obtain ⟨d, z, hc, -, -, hd⟩ := exists_carries hb (sizes (.inr hs))
      exact wrong (dir (hp ▸ rfl) hk) hc (hd (by rcases hs with h | h | h | h <;> omega))
    · obtain ⟨d, z, hc, hd, -⟩ := exists_carries (fun h => h.2 h0) (sizes hl)
      exact wrong (dir (hp ▸ rfl) hk) hc (hd h0)
    · obtain ⟨d, z, hc, -, hd, -⟩ := exists_carries (fun h => h.1 h0) (sizes hl)
      exact wrong (dir (hp ▸ rfl) hk) hc (hd h0)
    · refine State.execEncBuild_of_error ((buildWord_of_kind hk (by decide) hm).trans ?_)
      have hn : NoLength req := ⟨by omega, by omega⟩
      change buildSeqAdvance _ _ _ = _
      simp only [buildSeqAdvance, dirsize_none req _ hn (.inr rfl), if_pos hc]

end Sys2Proof.Machine
end

section
/-! The thirty-one commands: each is the encoder run on the operands of its own Command Word (40_cmdgen.md R175-R224,
notes/assumptions/1.md). -/

namespace Sys2Proof.Machine

open Sys2Proof

/-! ### Operands of a Command Word as a request -/

section
variable {L : Layout} {h : CmdHdr} {req : BuildReq}

/-- A header of a word, handed in as a request, is built again (R172). -/
theorem hdr_withHdr (c : Cfg) {dir : BitVec 2} (hd : h.dir = dir) (z : BitVec 2) :
    (req.withHdr h).hdr c.dupcheck dir z = { (configuredHdr c h) with dsize := z } := hd ▸ rfl

/-- A kind that asks for one direction answers a word with another by the error of its lengths. -/
theorem asks_withHdr {k : Byte} (hk : req.kind = k) (h14 : k.toNat < 14 ∧ k ≠ 7) (hm : h.msize ≠ 3) :
    Asks L (req.withHdr h) (kindNeed k.toNat) := by
  subst hk
  exact ⟨hm, .inl ⟨h14.1, h14.2, rfl⟩⟩

/-- A buffer field holds what `buf` writes (30_encoding.md R123). -/
theorem buf_bufField (b : Byte) : buf (bufField b) = b := by
  unfold buf bufField
  split_ifs with hb
  · exact hb.symm
  · rfl

end

section
variable {s : State} {h : CmdHdr} {st : Stamp} {req : BuildReq}

theorem State.encodeCommand_of_dirsize_error {need : Option Dir} {e : OpError} (ha : Asks s.params.layout (req.withHdr h) need)
    (he : dirsize (req.withHdr h) need = .error e) : s.encodeCommand h st req = .next (s.answered (Response.error e)) :=
  State.encodeCommand_of_error (buildWord_of_dirsize_error _ ha he)

/-- A direction the kind does not ask for (R173, R119). -/
theorem State.encodeCommand_wrong_direction {k : Byte} {d : Dir} (hk : req.kind = k) (h14 : k.toNat < 14 ∧ k ≠ 7)
    (hm : h.msize ≠ 3) (hn : kindNeed k.toNat = some d) (hd : h.dir ≠ d.code) :
    s.encodeCommand h st req = .next (s.answered (Response.error (if h.dir = 3 then .bidir else .badDir))) :=
  State.encodeCommand_of_dirsize_error (hn ▸ asks_withHdr hk h14 hm) (dirsize_withHdr_other req hd)

/-- The two errors of a word with a direction whose command carries no data. -/
theorem State.encodeCommand_noData_rejects {k : Byte} (hk : req.kind = k) (h14 : k.toNat < 14 ∧ k ≠ 7) (hm : h.msize ≠ 3)
    (hn : kindNeed k.toNat = some .none) :
    (h.dir = 3 → s.encodeCommand h st req = .next (s.answered (Response.error .bidir)))
      ∧ ((h.dir = 1 ∨ h.dir = 2) → s.encodeCommand h st req = .next (s.answered (Response.error .badDir))) := by
  refine ⟨fun hd => ?_, fun hd => ?_⟩
  · rw [State.encodeCommand_wrong_direction hk h14 hm hn (by rw [hd]; decide), if_pos hd]
  · have h3 : h.dir ≠ 3 := by rcases hd with hd | hd <;> rw [hd] <;> decide
    rw [State.encodeCommand_wrong_direction hk h14 hm hn (by rcases hd with hd | hd <;> rw [hd] <;> decide), if_neg h3]

/-- A command without data answers its word (section 3). -/
theorem State.encodeCommand_noData {k : Byte} {o : Opcode} {src dst : BitVec 56} (ha : s.params.layout.admissible = true)
    (hu : s.params.layout.unambiguous = true) (hk : req.kind = k) (h14 : k.toNat ≤ 14) (hm : h.msize ≠ 3) (hd : h.dir = 0)
    (hb : buildKind s.params.layout s.params.cfg (req.withHdr h) k.toNat
      = buildNoData s.params.layout s.params.cfg (req.withHdr h) o src dst) :
    s.encodeCommand h st req = .next (s.answered (Response.ofWord (joinParts s.params.layout
      (plainParts s.params.layout o { (configuredHdr s.params.cfg h) with dsize := 0 } src dst st)))) := by
  obtain ⟨hw, -⟩ := Layout.admissible_iff.1 ha
  have h := State.encodeCommand_of_ok (st := st) ha hu ((buildWord_of_kind (req := req.withHdr h) hk h14 hm).trans (hb.trans
    (buildNoData_of_carries s.params.cfg hw hu o src dst ((carries_withHdr req h).1 hd))))
  rw [hdr_withHdr _ hd] at h
  exact h

end

/-- Settles O29: NULL, RESET, SHUTDOWN and SATA_REINIT. -/
theorem bareCommandsAnswer : Obligations.BareCommandsAnswer := by
  intro s h st ha hu hm g ans err
  refine ⟨fun hd => ⟨?_, ?_, ?_, ?_⟩, fun i hi => ?_⟩
  · exact State.encodeCommand_noData (k := kNull) ha hu rfl (by decide) hm hd rfl
  · exact State.encodeCommand_noData (k := kReset) ha hu rfl (by decide) hm hd rfl
  · exact State.encodeCommand_noData (k := kShutdown) ha hu rfl (by decide) hm hd rfl
  · exact State.encodeCommand_noData (k := kSataReinit) ha hu rfl (by decide) hm hd rfl
  · simp only [List.mem_cons, List.not_mem_nil, or_false] at hi
    rcases hi with rfl | rfl | rfl | rfl
    · exact State.encodeCommand_noData_rejects (k := kNull) rfl (by decide) hm rfl
    · exact State.encodeCommand_noData_rejects (k := kReset) rfl (by decide) hm rfl
    · exact State.encodeCommand_noData_rejects (k := kShutdown) rfl (by decide) hm rfl
    · exact State.encodeCommand_noData_rejects (k := kSataReinit) rfl (by decide) hm rfl

/-- Settles O30: GET_REG, PUT_REG, TRIM, CANCEL and SEQ_ADVANCE. -/
theorem controlCommandsAnswer : Obligations.ControlCommandsAnswer := by
  intro s h st a b count target ha hu hm g ans err
  obtain ⟨hw, -⟩ := Layout.admissible_iff.1 ha
  refine ⟨fun hd => ⟨?_, ?_, ?_, ?_, fun h0 h32 => ?_, fun hc => ?_⟩, fun i hi => ?_⟩
  · exact State.encodeCommand_noData (k := kGetReg) ha hu rfl (by decide) hm hd rfl
  · exact State.encodeCommand_noData (k := kPutReg) ha hu rfl (by decide) hm hd rfl
  · exact State.encodeCommand_noData (k := kTrim) ha hu rfl (by decide) hm hd rfl
  · exact State.encodeCommand_noData (k := kCancel) ha hu rfl (by decide) hm hd rfl
  · let req : BuildReq := { BuildReq.blank with kind := kSeqAdvance, seqCount := a.toNat }
    have h0 : (req.withHdr h).seqCount ≠ 0 := fun e => h0 (BitVec.eq_of_toNat_eq e)
    have e := State.encodeCommand_of_ok (st := st) ha hu ((buildWord_of_kind (k := kSeqAdvance) rfl (by decide) hm).trans
      (buildSeqAdvance_of_carries s.params.cfg hw hu ((carries_withHdr req h).1 hd) h0 h32))
    rw [hdr_withHdr _ hd, show BitVec.ofNat 56 (req.withHdr h).seqCount = a from BitVec.ofNat_toNat .. ▸ BitVec.setWidth_eq a] at e
    exact e
  · let req : BuildReq := { BuildReq.blank with kind := kSeqAdvance, seqCount := a.toNat }
    refine State.encodeCommand_of_error (req := req) ((buildWord_of_kind (k := kSeqAdvance) rfl (by decide) hm).trans ?_)
    change buildSeqAdvance _ _ _ = _
    have hc : (req.withHdr h).seqCount = 0 ∨ 2 ^ 32 ≤ (req.withHdr h).seqCount := hc.imp_left (congrArg BitVec.toNat)
    simp only [buildSeqAdvance, dirsize_of_carries ((carries_withHdr req h).1 hd) (.inr rfl), if_pos hc]
  · simp only [List.mem_cons, List.not_mem_nil, or_false] at hi
    rcases hi with rfl | rfl | rfl | rfl | rfl
    · exact State.encodeCommand_noData_rejects (k := kGetReg) rfl (by decide) hm rfl
    · exact State.encodeCommand_noData_rejects (k := kPutReg) rfl (by decide) hm rfl
    · exact State.encodeCommand_noData_rejects (k := kTrim) rfl (by decide) hm rfl
    · exact State.encodeCommand_noData_rejects (k := kCancel) rfl (by decide) hm rfl
    · exact State.encodeCommand_noData_rejects (k := kSeqAdvance) rfl (by decide) hm rfl

/-- The block count of a transfer of a size code (R122). -/
theorem blockCount_lenOf_eq (z : BitVec 2) : blockCount (lenOf z) = if z = 3 then 0 else (1 : Byte) <<< z.toNat := by
  revert z; decide

/-- Settles O31: the commands with data and the two parameter commands. -/
theorem transferCommandsAnswer : Obligations.TransferCommandsAnswer := by
  intro s h st lba param bcnt b0 b1 b2 ha hu hm g n ans err reads writes
  obtain ⟨hw, -⟩ := Layout.admissible_iff.1 ha
  have hn : blockCount (lenOf h.dsize) = n := blockCount_lenOf_eq _
  refine ⟨fun hd => ?_, fun hd => ?_, fun hd i hi => ?_, fun hd i hi => ?_⟩
  · have hc (req : BuildReq) := (carries_withHdr req h).2.2 hd
    refine ⟨fun i hi => ?_, ?_⟩
    · have e := State.encodeCommand_of_ok (st := st) ha hu
        ((buildWord_of_kind (k := kRead) rfl (by decide) hm).trans (buildRead_of_carries s.params.cfg hw hu
          (hc { BuildReq.blank with kind := kRead, lba := lba, coreBuf := bufField b0 })))
      rw [hdr_withHdr _ hd, hn] at e
      simp only [BuildReq.withHdr, buf_bufField] at e
      simp only [reads, List.mem_cons, List.not_mem_nil, or_false] at hi
      rcases hi with rfl | rfl <;> exact e
    · have e := State.encodeCommand_of_ok (st := st) ha hu
        ((buildWord_of_kind (k := kGetParams) rfl (by decide) hm).trans (buildGetParams_of_carries s.params.cfg hw hu
          (hc { BuildReq.blank with kind := kGetParams, param := param, coreBuf := bufField b0 })))
      rw [hdr_withHdr _ hd] at e
      simp only [BuildReq.withHdr, buf_bufField] at e
      exact e
  · have hc (req : BuildReq) := (carries_withHdr req h).2.1 hd
    refine ⟨fun i hi => ?_, ?_⟩
    · have e := State.encodeCommand_of_ok (st := st) ha hu
        ((buildWord_of_kind (k := kWrite) rfl (by decide) hm).trans (buildWrite_of_carries s.params.cfg hw hu
          (hc { BuildReq.blank with kind := kWrite, lba := lba, wbuf0 := bufField b0, wbuf1 := bufField b1, wbuf2 := bufField b2 })))
      rw [hdr_withHdr _ hd, hn] at e
      simp only [BuildReq.withHdr, buf_bufField] at e
      simp only [writes, List.mem_cons, List.not_mem_nil, or_false] at hi
      rcases hi with rfl | rfl <;> exact e
    · have e := State.encodeCommand_of_ok (st := st) ha hu
        ((buildWord_of_kind (k := kSetParams) rfl (by decide) hm).trans (buildSetParams_of_carries s.params.cfg hw hu
          (hc { BuildReq.blank with kind := kSetParams, param := param, wbuf0 := bufField b0 })))
      rw [hdr_withHdr _ hd] at e
      simp only [BuildReq.withHdr, buf_bufField] at e
      exact e
  · simp only [reads, List.mem_cons, List.not_mem_nil, or_false] at hi
    rcases hi with rfl | rfl | rfl
    · exact State.encodeCommand_wrong_direction (k := kGetParams) (d := .d2h) rfl (by decide) hm rfl hd
    · exact State.encodeCommand_wrong_direction (k := kRead) (d := .d2h) rfl (by decide) hm rfl hd
    · exact State.encodeCommand_wrong_direction (k := kRead) (d := .d2h) rfl (by decide) hm rfl hd
  · simp only [writes, List.mem_cons, List.not_mem_nil, or_false] at hi
    rcases hi with rfl | rfl | rfl
    · exact State.encodeCommand_wrong_direction (k := kSetParams) (d := .h2d) rfl (by decide) hm rfl hd
    · exact State.encodeCommand_wrong_direction (k := kWrite) (d := .h2d) rfl (by decide) hm rfl hd
    · exact State.encodeCommand_wrong_direction (k := kWrite) (d := .h2d) rfl (by decide) hm rfl hd

end Sys2Proof.Machine
end

section
/-! The passthrough and the fifteen raw commands (40_cmdgen.md R200-R224). -/

namespace Sys2Proof.Machine

open Sys2Proof

/-! ### The embedded ATA command (R201, R204) -/

/-- The sixteen bytes a form stands for: of the 12-byte form, twelve and zeros. -/
def cdbPadded (cdb : BitVec 128) : BitVec 128 :=
  if (cdb.extractLsb' 0 8 : Byte) = 0xA1 then (cdb.setWidth 96).setWidth 128 else cdb

theorem cdbByte_eq (cdb : BitVec 128) (k : Nat) : cdbByte cdb k = cdb.extractLsb' (8 * k) 8 := by
  apply BitVec.eq_of_getLsbD_eq
  intro i hi
  simp [cdbByte, hi]

theorem cdbList_head (cdb : BitVec 128) : (cdbList cdb).head? = some (cdb.extractLsb' 0 8) := by
  have h : cdbByte cdb 0 = cdb.extractLsb' 0 8 := cdbByte_eq cdb 0
  rw [cdbList, ← h]
  split_ifs <;> rfl

theorem cdbList_length (cdb : BitVec 128) : (cdbList cdb).length = if (cdb.extractLsb' 0 8 : Byte) = 0xA1 then 12 else 16 := by
  have h : cdbByte cdb 0 = cdb.extractLsb' 0 8 := cdbByte_eq cdb 0
  rw [cdbList, ← h]
  split_ifs <;> simp

/-- The bytes of the list are those of the padded command. -/
theorem cdbList_getD (cdb : BitVec 128) {k : Nat} (hk : k < 16) : (cdbList cdb).getD k 0 = (cdbPadded cdb).extractLsb' (8 * k) 8 := by
  have h : cdbByte cdb 0 = cdb.extractLsb' 0 8 := cdbByte_eq cdb 0
  rw [cdbList, cdbPadded, ← h]
  split_ifs with hA
  · rw [List.getD_eq_getElem?_getD, List.getElem?_take]
    by_cases h12 : k < 12
    · simp only [h12, if_true, List.getElem?_map, List.getElem?_range hk, Option.map_some, Option.getD_some, cdbByte_eq]
      apply BitVec.eq_of_getLsbD_eq
      intro i hi
      have : 8 * k + i < 96 := by omega
      simp [hi, this]
      omega
    · rw [if_neg h12]
      apply BitVec.eq_of_getLsbD_eq
      intro i hi
      have : ¬ 8 * k + i < 96 := by omega
      simp [this]
  · rw [List.getD_eq_getElem?_getD, List.getElem?_map, List.getElem?_range hk, Option.map_some, Option.getD_some, cdbByte_eq]

theorem passthroughForm_cdbList (cdb : BitVec 128) :
    PassthroughForm (cdbList cdb) ↔ (cdb.extractLsb' 0 8 : Byte) = 0x85 ∨ (cdb.extractLsb' 0 8 : Byte) = 0xA1 := by
  rw [PassthroughForm, cdbList_head, cdbList_length]
  generalize (cdb.extractLsb' 0 8 : Byte) = op
  by_cases h : op = 0xA1
  · simp [h]
  · rw [if_neg h]
    simp only [Option.some.injEq, and_true, h, false_and, or_false]

theorem cdbProtocol_cdbList (cdb : BitVec 128) : cdbProtocol (cdbList cdb) = cdb.extractLsb' 9 4 := by
  rw [cdbProtocol, cdbList_getD cdb (by omega), cdbPadded]
  apply BitVec.eq_of_getLsbD_eq
  intro i hi
  have h1 : 1 + i < 8 := by omega
  have h2 : 8 + (1 + i) = 9 + i := by omega
  have h3 : 9 + i < 96 := by omega
  split_ifs <;> simp [hi, h1, h2, h3]
  omega

theorem sevenBytes_extract (c : BitVec 128) (n : Nat) : sevenBytes (fun k => c.extractLsb' (8 * (n + k)) 8) = c.extractLsb' (8 * n) 56 := by
  apply BitVec.eq_of_getLsbD_eq
  intro i hi
  simp only [sevenBytes, BitVec.getLsbD_append, BitVec.getLsbD_extractLsb']
  split_ifs <;> exact congrArg₂ and (decide_eq_decide.2 (by omega)) (congrArg _ (by omega))

theorem sevenBytes_congr {f g : Nat → Byte} (h : ∀ k, k < 7 → f k = g k) : sevenBytes f = sevenBytes g := by
  simp only [sevenBytes, h _ (by omega : 0 < 7), h _ (by omega : 1 < 7), h _ (by omega : 2 < 7), h _ (by omega : 3 < 7),
    h _ (by omega : 4 < 7), h _ (by omega : 5 < 7), h _ (by omega : 6 < 7)]

/-- The sub-fields hold the padded command (R204). -/
theorem embed_cdbList (cdb : BitVec 128) :
    embedAux0 (cdbList cdb) = (cdbPadded cdb).extractLsb' 0 56 ∧ embedAux1 (cdbList cdb) = (cdbPadded cdb).extractLsb' 56 56
      ∧ embedAux2 (cdbList cdb) = ((cdbPadded cdb).extractLsb' 112 16).setWidth 56 := by
  obtain ⟨e0, e1, e2⟩ := embed_eq (cdbList cdb)
  refine ⟨e0.trans ?_, e1.trans ?_, e2.trans (congrArg _ ?_)⟩
  · rw [sevenBytes_congr (g := fun k => (cdbPadded cdb).extractLsb' (8 * (0 + k)) 8), sevenBytes_extract]
    intro k hk
    rw [cdbList_getD cdb (by omega), Nat.zero_add]
  · rw [sevenBytes_congr (g := fun k => (cdbPadded cdb).extractLsb' (8 * (7 + k)) 8), sevenBytes_extract]
    intro k hk
    rw [cdbList_getD cdb (by omega)]
  · rw [cdbList_getD cdb (by omega), cdbList_getD cdb (by omega)]
    apply BitVec.eq_of_getLsbD_eq
    intro i hi
    simp only [BitVec.getLsbD_append, BitVec.getLsbD_extractLsb']
    split_ifs <;> exact congrArg₂ and (decide_eq_decide.2 (by omega)) (congrArg _ (by omega))

/-! ### DEV_PASSTHRU -/

section
variable {s : State} {h : CmdHdr} {st : Stamp} {wbuf0 coreBuf : Byte} {cdb : BitVec 128}

/-- The request of a passthrough word. -/
def ptReq (wbuf0 coreBuf : Byte) (cdb : BitVec 128) : BuildReq :=
  { BuildReq.blank with kind := kPassthrough, wbuf0 := bufField wbuf0, coreBuf := bufField coreBuf, cdb := cdbList cdb }

theorem exec_devPassthru_eq :
    exec (.devPassthru h wbuf0 coreBuf cdb st) s = s.encodeCommand h st (ptReq wbuf0 coreBuf cdb) := rfl

theorem exec_devPassthru_of_carries {d : Dir} {z : BitVec 2} (ha : s.params.layout.admissible = true)
    (hu : s.params.layout.unambiguous = true) (hm : h.msize ≠ 3)
    (hf : (cdb.extractLsb' 0 8 : Byte) = 0x85 ∨ (cdb.extractLsb' 0 8 : Byte) = 0xA1)
    (hp : protoDir (cdb.extractLsb' 9 4) = .ok d) (hd : h.dir = d.code)
    (hc : Carries ((ptReq wbuf0 coreBuf cdb).withHdr h) d z) :
    exec (.devPassthru h wbuf0 coreBuf cdb st) s = .next (s.answered (Response.ofWord (joinParts s.params.layout
      { opc := s.params.layout.opcode .devPassthru, hdr := { h with dupChk := 0, dsize := z }, src := wbuf0.setWidth 56,
        dst := coreBuf.setWidth 56, aux0 := (cdbPadded cdb).extractLsb' 0 56, aux1 := (cdbPadded cdb).extractLsb' 56 56,
        aux2 := ((cdbPadded cdb).extractLsb' 112 16).setWidth 56, stamp := st }))) := by
  obtain ⟨hw, -⟩ := Layout.admissible_iff.1 ha
  rw [← cdbProtocol_cdbList] at hp
  have e := State.encodeCommand_of_ok (s := s) (st := st) ha hu ((buildWord_of_kind (k := kPassthrough) rfl (by decide) hm).trans
    (buildPassthrough_of_carries (req := (ptReq wbuf0 coreBuf cdb).withHdr h) hw hu ((passthroughForm_cdbList cdb).2 hf) hp hc))
  obtain ⟨e0, e1, e2⟩ := embed_cdbList cdb
  simp only [BuildReq.withHdr, ptReq, BuildReq.hdr, e0, e1, e2, buf_bufField, ← hd] at e
  exact e

end

/-- Settles O32: the form, the protocol and the direction are checked in this order. -/
theorem passthroughCommandAnswers : Obligations.PassthroughCommandAnswers := by
  intro s h st wbuf0 coreBuf cdb ha hu hm i op proto fits c p
  have asks {d : Dir} (hf : op = 0x85 ∨ op = 0xA1) (hp : protoDir proto = .ok d) :
      Asks s.params.layout ((ptReq wbuf0 coreBuf cdb).withHdr h) (some d) :=
    ⟨hm, .inr (.inl ⟨rfl, (passthroughForm_cdbList cdb).2 hf, d, (congrArg protoDir (cdbProtocol_cdbList cdb)).trans hp, rfl⟩)⟩
  have dirOf (hp : proto ∈ ([3, 4, 5] : List (BitVec 4))) : ∃ d, protoDir proto = .ok d := by
    rcases protoDir_cases proto with ⟨-, h⟩ | ⟨-, h⟩ | ⟨-, h⟩ | ⟨h, -⟩
    · exact ⟨_, h⟩
    · exact ⟨_, h⟩
    · exact ⟨_, h⟩
    · exact absurd hp h
  have rejects {e : OpError} (hb : buildPassthrough s.params.layout ((ptReq wbuf0 coreBuf cdb).withHdr h) = .error e) :
      exec i s = .next (s.answered (Response.error e)) :=
    State.encodeCommand_of_error ((buildWord_of_kind (k := kPassthrough) rfl (by decide) hm).trans hb)
  refine ⟨fun hf hfit => ?_, fun h1 h2 => rejects (if_pos ?_), fun hf hp => rejects ?_, fun hf hp hd => ?_,
    fun hf hp hd hfit => ?_⟩
  · obtain ⟨c0, c1, c2⟩ := carries_withHdr (ptReq wbuf0 coreBuf cdb) h
    have ans {d : Dir} (hp : protoDir proto = .ok d) (hd : h.dir = d.code) {z : BitVec 2}
        (hc : Carries ((ptReq wbuf0 coreBuf cdb).withHdr h) d z) (hz : (if h.dir = 0 then 0 else h.dsize) = z) :
        exec i s = .next (s.answered (Response.ofWord (joinParts s.params.layout p))) := by
      subst hz
      exact exec_devPassthru_of_carries ha hu hm hf hp hd hc
    rcases hfit with ⟨hp, hd⟩ | ⟨hp, hd⟩ | ⟨hp, hd⟩
    · exact ans (d := .none) (hp ▸ rfl) hd (c0 hd) (if_pos hd)
    · exact ans (d := .d2h) (hp ▸ rfl) hd (c2 hd) (if_neg (by simp [hd]))
    · exact ans (d := .h2d) (hp ▸ rfl) hd (c1 hd) (if_neg (by simp [hd]))
  · refine Bool.eq_false_iff.2 fun hc => ?_
    rcases (passthroughForm_cdbList cdb).1 ((checkForm_iff _).1 hc) with h | h
    · exact h1 h
    · exact h2 h
  · rw [buildPassthrough, if_neg (by simp [(checkForm_iff _).2 ((passthroughForm_cdbList cdb).2 hf), ptReq, BuildReq.withHdr])]
    have he : protoDir (cdbProtocol ((ptReq wbuf0 coreBuf cdb).withHdr h).cdb) = .error .badProtocol := by
      refine (congrArg protoDir (cdbProtocol_cdbList cdb)).trans ?_
      rcases protoDir_cases proto with ⟨h, -⟩ | ⟨h, -⟩ | ⟨h, -⟩ | ⟨-, h⟩
      · exact absurd (h ▸ by simp) hp
      · exact absurd (h ▸ by simp) hp
      · exact absurd (h ▸ by simp) hp
      · exact h
    simp only [he]
  · obtain ⟨d, hd'⟩ := dirOf hp
    exact State.encodeCommand_of_dirsize_error (asks hf hd') (dirsize_withHdr_both _ hd _)
  · obtain ⟨d, hd'⟩ := dirOf hp
    have hne : h.dir ≠ d.code := fun e => hfit <| by
      rcases protoDir_cases proto with ⟨hv, h⟩ | ⟨hv, h⟩ | ⟨hv, h⟩ | ⟨-, h⟩ <;> cases h.symm.trans hd'
      · exact .inl ⟨hv, e⟩
      · exact .inr (.inl ⟨hv, e⟩)
      · exact .inr (.inr ⟨hv, e⟩)
    exact State.encodeCommand_of_dirsize_error (asks hf hd') ((dirsize_withHdr_other _ hne).trans (by rw [if_neg hd]))

/-! ### RAW -/

section
variable {s : State} {h : CmdHdr} {st : Stamp}

theorem State.encodeCommand_raw_bidir (hu : s.params.layout.unambiguous = true) (hm : h.msize ≠ 3) {o : Opcode}
    (ho : o.builtByRaw = true) (a b : BitVec 56) (hd : h.dir = 3) :
    s.encodeCommand h st (rawReq s.params.layout o a b) = .next (s.answered (Response.error .bidir)) :=
  State.encodeCommand_of_dirsize_error
    ⟨hm, .inr (.inr ⟨rfl, ⟨o, (Layout.opcodeOf_eq_some_iff (Layout.codesFit_of_unambiguous hu) _ _).2 rfl, ho⟩, rfl⟩)⟩
    (dirsize_withHdr_both _ hd _)

theorem State.encodeCommand_raw (ha : s.params.layout.admissible = true) (hu : s.params.layout.unambiguous = true)
    (hm : h.msize ≠ 3) {o : Opcode} (ho : o.builtByRaw = true) (a b : BitVec 56) (hd : h.dir ≠ 3) :
    s.encodeCommand h st (rawReq s.params.layout o a b) = .next (s.answered (Response.ofWord (joinParts s.params.layout
      (plainParts s.params.layout o { (configuredHdr s.params.cfg h) with dsize := if h.dir = 0 then 0 else h.dsize } a b st)))) := by
  obtain ⟨hw, -⟩ := Layout.admissible_iff.1 ha
  have hop : s.params.layout.opcodeOf (s.params.layout.opcode o) = some o :=
    (Layout.opcodeOf_eq_some_iff (Layout.codesFit_of_unambiguous hu) _ _).2 rfl
  have ans {d : Dir} {z : BitVec 2} (hdir : h.dir = d.code) (hz : (if h.dir = 0 then 0 else h.dsize) = z)
      (hc : Carries ((rawReq s.params.layout o a b).withHdr h) d z) := by
    have e := State.encodeCommand_of_ok (s := s) (st := st) ha hu ((buildWord_of_kind (k := kRaw) rfl (by decide) hm).trans
      (buildRaw_of_carries (req := (rawReq s.params.layout o a b).withHdr h) s.params.cfg hw hu hop ho hc))
    rw [hdr_withHdr _ hdir, ← hz] at e
    exact e
  obtain ⟨c0, c1, c2⟩ := carries_withHdr (rawReq s.params.layout o a b) h
  have hcases : h.dir = 0 ∨ h.dir = 1 ∨ h.dir = 2 := by revert hd; generalize h.dir = x; revert x; decide
  rcases hcases with hd | hd | hd
  · exact ans (d := .none) hd (if_pos hd) (c0 hd)
  · exact ans (d := .h2d) hd (if_neg (by simp [hd])) (c1 hd)
  · exact ans (d := .d2h) hd (if_neg (by simp [hd])) (c2 hd)

end

/-- Settles O33: the fifteen opcodes, each `K_RAW` on its own code. -/
theorem rawCommandsAnswer : Obligations.RawCommandsAnswer := by
  intro s h st a b ha hu hm g p hp
  have answers {i : Instr} {o : Opcode} (hi : exec i s = s.encodeCommand h st (rawReq s.params.layout o a b))
      (ho : o.builtByRaw = true) :
      (h.dir ≠ 3 → exec i s = .next (s.answered (Response.ofWord (joinParts s.params.layout (plainParts s.params.layout o g a b st)))))
      ∧ (h.dir = 3 → exec i s = .next (s.answered (Response.error .bidir))) :=
    ⟨fun hd => hi.trans (State.encodeCommand_raw ha hu hm ho a b hd),
      fun hd => hi.trans (State.encodeCommand_raw_bidir hu hm ho a b hd)⟩
  simp only [List.mem_cons, List.not_mem_nil, or_false] at hp
  rcases hp with rfl | rfl | rfl | rfl | rfl | rfl | rfl | rfl | rfl | rfl | rfl | rfl | rfl | rfl | rfl <;>
    exact answers rfl rfl

end Sys2Proof.Machine
end

section
/-! Host operation requests read back (30_encoding.md R160, notes/assumptions/9.md): each argument off the front of the bytes
that hold it. -/

namespace Sys2Proof

/-- The reader gets the argument back that the writer put, and leaves what follows. -/
def GetsBack {α : Type} (get : List Byte → Option (α × List Byte)) (put : α → List Byte) : Prop :=
  ∀ a rest, get (put a ++ rest) = some (a, rest)

theorem getNat_putNatFuel (f n : Nat) (h : n < 2 ^ (f + 1)) (rest : List Byte) : getNat (putNatFuel f n ++ rest) = some (n, rest) := by
  induction f generalizing n with
  | zero =>
    have h : n < 2 := h
    have hb : (BitVec.ofNat 8 n).toNat = n := by rw [BitVec.toNat_ofNat]; omega
    simp only [putNatFuel, List.singleton_append, getNat, hb, show n < 128 by omega, if_true]
  | succ f ih =>
    rw [putNatFuel]
    split
    next hn =>
      have hb : (BitVec.ofNat 8 n).toNat = n := by rw [BitVec.toNat_ofNat]; omega
      simp only [List.singleton_append, getNat, hb, hn, if_true]
    next hn =>
      have hb : (BitVec.ofNat 8 (n % 128 + 128)).toNat = n % 128 + 128 := by rw [BitVec.toNat_ofNat]; omega
      have hd : n / 128 < 2 ^ (f + 1) := by rw [Nat.pow_succ] at h; omega
      simp only [List.cons_append, getNat, hb, ih _ hd, show ¬ n % 128 + 128 < 128 by omega, if_false]
      rw [show n % 128 + 128 - 128 + 128 * (n / 128) = n by omega]

theorem getsBack_nat : GetsBack getNat putNat := fun n rest => getNat_putNatFuel _ n Nat.lt_log2_self rest

theorem getsBack_bits (w : Nat) : GetsBack (getBits w) putBits := fun v rest => by
  simp only [getBits, putBits, getsBack_nat v.toNat rest, v.isLt, if_true, BitVec.ofNat_toNat, BitVec.setWidth_eq]

theorem getsBack_bool : GetsBack getBool putBool := fun b rest => by
  cases b <;> simp only [getBool, putBool, Bool.toNat_false, Bool.toNat_true, getsBack_nat _ rest]

theorem getsBack_tokenType : GetsBack getTokenType putTokenType := fun t rest => by
  cases t <;> simp only [getTokenType, putTokenType, getsBack_nat _ rest]

theorem getsBack_option {α : Type} {get : List Byte → Option (α × List Byte)} {put : α → List Byte} (h : GetsBack get put) :
    GetsBack (getOption get) (putOption put) := fun a rest => by
  cases a with
  | none => simp only [getOption, putOption, getsBack_nat 0 rest]
  | some a => simp only [getOption, putOption, List.append_assoc, getsBack_nat 1 _, h a rest]

theorem getBytes_putBytes (l rest : List Byte) : getBytes l.length (putBytes l ++ rest) = some (l, rest) := by
  induction l with
  | nil => rfl
  | cons b l ih => simp only [List.length_cons, getBytes, putBytes, List.append_assoc, getsBack_bits 8 b _, ih]

/-- One argument read, the rest is read from what follows it. -/
theorem bind_of_eq_some {α β : Type} {o : Option α} {x : α} {k : α → Option β} {r : Option β} (h : o = some x) (hk : k x = r) :
    (o >>= k) = r := by
  rw [h]
  exact hk

theorem GetsBack.bind {α β : Type} {get : List Byte → Option (α × List Byte)} {put : α → List Byte} (h : GetsBack get put) {a : α}
    {rest : List Byte} {k : α × List Byte → Option β} {r : Option β} (hk : k (a, rest) = r) : (get (put a ++ rest) >>= k) = r :=
  bind_of_eq_some (h a rest) hk

theorem getsBack_req : GetsBack getReq putReq := fun r rest => by
  have byte := getsBack_bits 8
  have half := getsBack_bits 32
  have field := getsBack_bits 56
  have buffer := getsBack_option (getsBack_bits 8)
  simp only [putReq, List.append_assoc]
  refine byte.bind <| getsBack_nat.bind <| getsBack_nat.bind <| field.bind <| half.bind <| field.bind <| field.bind <| half.bind <|
    getsBack_nat.bind <| byte.bind <| getsBack_nat.bind <| bind_of_eq_some (getBytes_putBytes _ _) ?_
  exact byte.bind <| field.bind <| field.bind <| buffer.bind <| buffer.bind <| buffer.bind <| buffer.bind <|
    (getsBack_bits 2).bind <| (getsBack_bits 1).bind <| (getsBack_option getsBack_nat).bind <| getsBack_nat.bind <|
    getsBack_bool.bind <| getsBack_bool.bind rfl

theorem getsBack_wordArg : GetsBack getWordArg putWordArg := fun W rest => by
  have word := getsBack_bits 64
  simp only [putWordArg, List.append_assoc]
  exact word.bind <| word.bind <| word.bind <| word.bind <| word.bind <| word.bind <| word.bind <| word.bind rfl

/-- The op code and the arguments of an operation name it. -/
theorem getOp_opBytes {i : Instr} {op : Byte} {args : List Byte} (h : i.opBytes = some (op, args)) (rest : List Byte) :
    op.toNat < 12 ∧ getOp op.toNat (args ++ rest) = some (i, rest) := by
  cases i <;> cases h <;>
    simp [getOp, getsBack_req _ _, getsBack_wordArg _ _, getsBack_bits _ _ _,
      getsBack_nat _ _, getsBack_tokenType _ _, getsBack_option (getsBack_bits 5) _ _, getsBack_option getsBack_req _ _]

/-- Decoding the request of an operation gives the operation back (R160). -/
theorem decodeHostOp_opBytes {i : Instr} {op : Byte} {args : List Byte} (h : i.opBytes = some (op, args)) :
    decodeHostOp (op :: args) = .ok i := by
  obtain ⟨hop, hget⟩ := getOp_opBytes h []
  rw [List.append_nil] at hget
  simp only [decodeHostOp, show ¬ 16 ≤ op.toNat by omega, show ¬ 12 ≤ op.toNat by omega, hget, if_false, List.all_nil, if_true]

end Sys2Proof
end

section
/-! The fields of an encoded Command Word read back (30_encoding.md R111-R118): in an admissible, unambiguous layout as wide as
the operands `readParts` of an encoding is what was encoded, so the decoder's checks of a word accept it. -/

namespace Sys2Proof

section
variable {L : Layout}

/-- The layout's fields are as wide as their operands (R117 (L5), (L6), notes/assumptions/2.md). -/
theorem Layout.operands_wide (hwide : L.wideEnough = true) (ho : L.holdsOperands = true) :
    8 ≤ L.opc.width ∧ 2 ≤ L.dir.width ∧ 1 ≤ L.hwOnly.width ∧ 1 ≤ L.dupChk.width ∧ 2 ≤ L.dsize.width ∧ 2 ≤ L.msize.width
      ∧ 56 ≤ L.src.width ∧ 56 ≤ L.dst.width := by
  simp only [Layout.wideEnough, Bool.and_eq_true, decide_eq_true_eq] at hwide
  simp only [Layout.holdsOperands, Bool.and_eq_true, List.all_cons, decide_eq_true_eq] at ho
  omega

theorem Layout.holdsChecksum_of_holdsOperands (ho : L.holdsOperands = true) : L.holdsChecksum = true := by
  rw [Layout.holdsOperands, Bool.and_eq_true] at ho
  exact ho.2

/-- The sub-fields are as wide as their operands and hold neither MSB (R117 (L4), R115). -/
theorem Layout.aux_wide (hs : L.subFields = true) {f : Field} (hf : f ∈ L.auxFields) : f.width = 56 := by
  simp only [Layout.subFields, Bool.and_eq_true, List.all_eq_true, beq_iff_eq] at hs
  exact hs.1 f hf

end

end Sys2Proof

namespace Sys2Proof.Machine

open Sys2Proof

section
variable {L : Layout}

variable (hw : L.eightWords = true) (hu : L.unambiguous = true) (p : Parts)
include hw hu

/-- A field that duplication leaves alone reads as its operand. -/
theorem getField_joinParts_of_plain {f : Field} {n : Nat} {v : BitVec n} (hf : (f, v.setWidth 64) ∈ p.fields L) (hn : n ≤ f.width)
    (hm : ∀ g ∈ msbFields, f.apart g = true) (hd : p.hdr.dupChk ≠ 1 ∨ f.word < 3 ∨ 6 ≤ f.word) :
    (joinParts L p).getField f = v.setWidth 64 := by
  rw [← getField_placeFields hw hu p hf hn]
  refine CmdWord.getField_congr fun j k hh => ?_
  have hpres := (Field.present_iff f).1 (fields_present hw p _ hf)
  have off (b : Nat) (hb : (⟨5, b, 1⟩ : Field) ∈ msbFields) : ¬ (j = 5 ∧ k = b) := fun ⟨hj, hk⟩ =>
    Field.not_holds_of_apart (hm _ hb) hh ⟨hj.symm, by simp [hk], by simp [hk]⟩
  have hk : k < 64 := by obtain ⟨-, -, h⟩ := hh; omega
  rw [joinParts_bit hw hu p j k hk, if_neg (off 63 (by simp [msbFields])), if_neg (off 62 (by simp [msbFields]))]
  rcases hd with hd | hd
  · rw [mirrorWords_of_ne]
    rwa [getField_placeFields hw hu p (v := p.hdr.dupChk) (by simp [Parts.fields]) (dupChk_wide hw), ne_eq, setWidth_eq_one_iff]
  · exact mirrorWords_bit_of_outside _ (hh.1 ▸ hd)

/-- Header, source and destination read as their operands. -/
theorem getField_joinParts {f : Field} {n : Nat} {v : BitVec n} (hp : f ∈ L.protectedFields) (hf : (f, v.setWidth 64) ∈ p.fields L)
    (hn : n ≤ f.width) : (joinParts L p).getField f = v.setWidth 64 :=
  getField_joinParts_of_plain hw hu p hf hn (fun g hg => L.protected_apart_stampedLast hu hp
    (by simp [Layout.stampedLast, hg])) (.inr (L.protected_outside hu hp))

/-- Without duplication the sub-fields read as their operands. -/
theorem getField_joinParts_aux (hs : L.subFields = true) {f : Field} {v : BitVec 56} (ha : f ∈ L.auxFields)
    (hf : (f, v.setWidth 64) ∈ p.fields L) (hd : p.hdr.dupChk ≠ 1) : (joinParts L p).getField f = v.setWidth 64 := by
  refine getField_joinParts_of_plain hw hu p hf (L.aux_wide hs ha).ge (fun g hg => ?_) (.inl hd)
  have hpair := L.allFields_pairwise hu
  rw [Layout.allFields, List.pairwise_append] at hpair
  exact hpair.2.2 f (by simp [ha]) g hg

/-- The flag of the deallocation says whether there is one (40_cmdgen.md R227). -/
theorem getField_joinParts_deallocV : (joinParts L p).getField L.deallocV = if p.stamp.dealloc.isSome then 1 else 0 := by
  have hf : (L.deallocV, (BitVec.ofBool p.stamp.dealloc.isSome).setWidth 64) ∈ p.fields L := by
    cases h : p.stamp.dealloc <;> simp [Parts.fields, h]
  have hp : L.deallocV ∈ L.protectedFields := by simp [Layout.protectedFields, Layout.header]
  rw [getField_joinParts hw hu p hp hf ((Field.present_iff _).1 (fields_present hw p _ hf)).2.1]
  cases p.stamp.dealloc <;> rfl

omit hw hu in
theorem setWidth_setWidth_word {n : Nat} (v : BitVec n) (hn : n ≤ 64) : (v.setWidth 64).setWidth n = v := by
  rw [BitVec.setWidth_setWidth_of_le v hn, BitVec.setWidth_eq]

end

section
variable {L : Layout} (ha : L.admissible = true) (hu : L.unambiguous = true) (p : Parts)
include ha hu

/-- Every polarity position of an encoding carries the polarity (R116). -/
theorem getField_joinParts_polarity {f : Field} (hf : f ∈ L.polarityFields) :
    (joinParts L p).getField f = p.stamp.odd.setWidth 64 := by
  obtain ⟨hw, -⟩ := Layout.admissible_iff.1 ha
  obtain ⟨q, hq, rfl⟩ := List.mem_map.1 hf
  rw [← finalize_builtWord ha hu p]
  apply BitVec.eq_of_getLsbD_eq
  intro i hi
  rw [CmdWord.getLsbD_getField_eq_bit _ _ _ hi, BitVec.getLsbD_setWidth]
  by_cases h0 : i = 0
  · subst h0
    simp only [polarityField, Nat.add_zero, finalize_bit _ _ _ _ _ _ hw, if_pos hq, hi, Nat.lt_one_iff, decide_true, Bool.true_and]
  · simp [polarityField, h0, BitVec.getLsbD_of_ge p.stamp.odd i (by omega)]

/-- The fields of an encoding are what was encoded; a duplicated word has no sub-fields (R114). -/
theorem readParts_joinParts (ho : L.holdsOperands = true) (hd : p.hdr.dupChk = 1 → p.aux0 = 0 ∧ p.aux1 = 0 ∧ p.aux2 = 0) :
    readParts L (joinParts L p) = p := by
  obtain ⟨hw, hm, hsix, hs, hwide, -⟩ := Layout.admissible_iff.1 ha
  obtain ⟨nopc, ndir, nhw, ndup, ndsz, nmsz, nsrc, ndst⟩ := L.operands_wide hwide ho
  obtain ⟨nslot, nseq, nv, nid⟩ := L.stamped_wide hwide ho
  have field {f : Field} {n : Nat} (v : BitVec n) (hn : n ≤ f.width) (hn64 : n ≤ 64 := by omega)
      (hp : f ∈ L.protectedFields := by simp [Layout.protectedFields, Layout.header])
      (hf : (f, v.setWidth 64) ∈ p.fields L := by simp [Parts.fields]) : ((joinParts L p).getField f).setWidth n = v := by
    rw [getField_joinParts hw hu p hp hf hn, setWidth_setWidth_word v hn64]
  have dup : ((joinParts L p).getField L.dupChk).setWidth 1 = p.hdr.dupChk :=
    field p.hdr.dupChk ndup
  have aux {f : Field} {v : BitVec 56} (hf : f ∈ L.auxFields) (hm : (f, v.setWidth 64) ∈ p.fields L)
      (h0 : p.hdr.dupChk = 1 → v = 0) :
      (if p.hdr.dupChk = 1 then 0 else ((joinParts L p).getField f).setWidth 56) = v := by
    split_ifs with h
    · exact (h0 h).symm
    · rw [getField_joinParts_aux hw hu p hs hf hm h, setWidth_setWidth_word v (by omega)]
  have odd : L.oddOf (joinParts L p) = p.stamp.odd := by
    rw [Layout.oddOf]
    split
    next h =>
      have hlen : L.polarityFields.length = 6 := by
        simp only [Layout.sixPolarities, Bool.and_eq_true, beq_iff_eq] at hsix
        rw [Layout.polarityFields, List.length_map, hsix.1]
      simp [h] at hlen
    next f _ h =>
      rw [getField_joinParts_polarity ha hu p (f := f) (by simp [h]), setWidth_setWidth_word _ (by omega)]
  have xsum : L.checksumIn (joinParts L p) = p.stamp.xsum := by
    rw [← finalize_builtWord ha hu p]
    exact finalize_checksumIn _ _ _ _ _ _ hw hm hu (Layout.holdsChecksum_of_holdsOperands ho)
  have isSome : (joinParts L p).getField L.deallocV = 1 ↔ p.stamp.dealloc.isSome = true := by
    rw [getField_joinParts_deallocV hw hu p]
    cases p.stamp.dealloc <;> simp
  have dealloc : (if (joinParts L p).getField L.deallocV = 1 then some (((joinParts L p).getField L.deallocId).setWidth 5) else none)
      = p.stamp.dealloc := by
    rw [field (p.stamp.dealloc.getD 0) nid]
    simp only [isSome]
    cases p.stamp.dealloc <;> rfl
  have opc := field (f := L.opc) p.opc nopc
  have dir := field (f := L.dir) p.hdr.dir ndir
  have hwOnly := field (f := L.hwOnly) p.hdr.hwOnly nhw
  have dsize := field (f := L.dsize) p.hdr.dsize ndsz
  have msize := field (f := L.msize) p.hdr.msize nmsz
  have src := field (f := L.src) p.src nsrc
  have dst := field (f := L.dst) p.dst ndst
  have slot := field (f := L.slot) p.stamp.slot nslot
  have seq := field (f := L.seq) p.stamp.seq nseq
  have aux0 := aux (f := L.aux0) (v := p.aux0) (by simp [Layout.auxFields]) (by simp [Parts.fields]) fun h => (hd h).1
  have aux1 := aux (f := L.aux1) (v := p.aux1) (by simp [Layout.auxFields]) (by simp [Parts.fields]) fun h => (hd h).2.1
  have aux2 := aux (f := L.aux2) (v := p.aux2) (by simp [Layout.auxFields]) (by simp [Parts.fields]) fun h => (hd h).2.2
  simp only [readParts, dup, opc, dir, hwOnly, dsize, msize, src, dst, aux0, aux1, aux2, slot, seq, odd, dealloc, xsum]

end

end Sys2Proof.Machine
end

section
/-! Decoding what was encoded, and encoding what was decoded (30_encoding.md sections 1, 2 and 5). -/

namespace Sys2Proof

/-! ### The bytes of a Command Word -/

theorem wordOfBytes_wordBytes (w : Word) :
    wordOfBytes (w.extractLsb' 0 8) (w.extractLsb' 8 8) (w.extractLsb' 16 8) (w.extractLsb' 24 8) (w.extractLsb' 32 8)
      (w.extractLsb' 40 8) (w.extractLsb' 48 8) (w.extractLsb' 56 8) = w := by
  simp only [wordOfBytes, BitVec.extractLsb'_append_extractLsb'_eq_extractLsb', BitVec.extractLsb'_eq_self]

theorem takeWord_wordBytes (w : Word) (rest : List Byte) : takeWord (wordBytes w ++ rest) = some (w, rest) := by
  simp only [wordBytes, List.cons_append, List.nil_append, takeWord, wordOfBytes_wordBytes]

theorem takeCmdWord_bytes (W : CmdWord) : takeCmdWord W.bytes = some (W, []) := by
  have h := takeWord_wordBytes W.w7 []
  rw [List.append_nil] at h
  simp only [takeCmdWord, CmdWord.bytes, List.append_assoc, takeWord_wordBytes, h, Option.bind_eq_bind, Option.bind_some]

theorem decodeCommand_bytes (L : Layout) (W : CmdWord) : decodeCommand L W.bytes = decodeWord L W := by
  simp only [decodeCommand, takeCmdWord_bytes]

/-! ### Operands packed into SRC, DST and AUX -/

/-- A half word in a 56-bit field (R113). -/
theorem pad32_extract (v : BitVec 32) :
    ((0 : BitVec 24) ++ v : BitVec 56).extractLsb' 32 24 = 0 ∧ ((0 : BitVec 24) ++ v : BitVec 56).extractLsb' 0 32 = v :=
  ⟨BitVec.extractLsb'_append_eq_left, BitVec.extractLsb'_append_eq_right⟩

/-- A byte in a 56-bit field (R122). -/
theorem pad8_extract (b : Byte) :
    ((0 : BitVec 48) ++ b : BitVec 56).extractLsb' 8 48 = 0 ∧ ((0 : BitVec 48) ++ b : BitVec 56).extractLsb' 0 8 = b :=
  ⟨BitVec.extractLsb'_append_eq_left, BitVec.extractLsb'_append_eq_right⟩

theorem pad32_of_extract {x : BitVec 56} (h : x.extractLsb' 32 24 = 0) : (0 : BitVec 24) ++ x.extractLsb' 0 32 = x := by
  simp only [← h, BitVec.extractLsb'_append_extractLsb'_eq_extractLsb', BitVec.extractLsb'_eq_self]

theorem pad8_of_extract {x : BitVec 56} (h : x.extractLsb' 8 48 = 0) : (0 : BitVec 48) ++ x.extractLsb' 0 8 = x := by
  simp only [← h, BitVec.extractLsb'_append_extractLsb'_eq_extractLsb', BitVec.extractLsb'_eq_self]

theorem pad16_extract (a : BitVec 16) :
    ((0 : BitVec 40) ++ a : BitVec 56).extractLsb' 16 40 = 0 ∧ ((0 : BitVec 40) ++ a : BitVec 56).extractLsb' 0 16 = a :=
  ⟨BitVec.extractLsb'_append_eq_left, BitVec.extractLsb'_append_eq_right⟩

theorem pad16_of_extract {x : BitVec 56} (h : x.extractLsb' 16 40 = 0) : (0 : BitVec 40) ++ x.extractLsb' 0 16 = x := by
  simp only [← h, BitVec.extractLsb'_append_extractLsb'_eq_extractLsb', BitVec.extractLsb'_eq_self]

/-- The sub-fields of an embedded ATA command made from them (R204). -/
theorem extractLsb'_cdb (a : BitVec 16) (b c : BitVec 56) :
    (a ++ b ++ c : BitVec 128).extractLsb' 0 56 = c ∧ (a ++ b ++ c : BitVec 128).extractLsb' 56 56 = b
      ∧ (a ++ b ++ c : BitVec 128).extractLsb' 112 16 = a :=
  ⟨BitVec.extractLsb'_append_eq_right,
    (BitVec.extractLsb'_append_eq_of_le (by omega)).trans BitVec.extractLsb'_append_eq_right,
    (BitVec.extractLsb'_append_eq_of_le (by omega)).trans BitVec.extractLsb'_append_eq_left⟩

theorem packRead_extract (n b : Byte) :
    (packRead n b).extractLsb' 16 40 = 0 ∧ (packRead n b).extractLsb' 8 8 = n ∧ (packRead n b).extractLsb' 0 8 = b := by
  refine ⟨?_, ?_, BitVec.extractLsb'_append_eq_right⟩
  · exact (BitVec.extractLsb'_append_eq_of_le (by omega)).trans BitVec.extractLsb'_append_eq_left
  · exact (BitVec.extractLsb'_append_eq_of_le (by omega)).trans BitVec.extractLsb'_append_eq_right

theorem packRead_of_extract {x : BitVec 56} (h : x.extractLsb' 16 40 = 0) :
    packRead (x.extractLsb' 8 8) (x.extractLsb' 0 8) = x := by
  simp only [packRead, ← h, BitVec.extractLsb'_append_extractLsb'_eq_extractLsb', BitVec.extractLsb'_eq_self]

theorem packWrite_extract (b0 n b1 b2 : Byte) :
    (packWrite b0 n b1 b2).extractLsb' 32 24 = 0 ∧ (packWrite b0 n b1 b2).extractLsb' 24 8 = b2
      ∧ (packWrite b0 n b1 b2).extractLsb' 16 8 = b1 ∧ (packWrite b0 n b1 b2).extractLsb' 8 8 = n
      ∧ (packWrite b0 n b1 b2).extractLsb' 0 8 = b0 := by
  refine ⟨?_, ?_, ?_, ?_, BitVec.extractLsb'_append_eq_right⟩ <;> refine (BitVec.extractLsb'_append_eq_of_le (by omega)).trans ?_
  · iterate 2 refine (BitVec.extractLsb'_append_eq_of_le (by omega)).trans ?_
    exact BitVec.extractLsb'_append_eq_left
  · iterate 2 refine (BitVec.extractLsb'_append_eq_of_le (by omega)).trans ?_
    exact BitVec.extractLsb'_append_eq_right
  · refine (BitVec.extractLsb'_append_eq_of_le (by omega)).trans ?_
    exact BitVec.extractLsb'_append_eq_right
  · exact BitVec.extractLsb'_append_eq_right

theorem packWrite_of_extract {x : BitVec 56} (h : x.extractLsb' 32 24 = 0) :
    packWrite (x.extractLsb' 0 8) (x.extractLsb' 8 8) (x.extractLsb' 16 8) (x.extractLsb' 24 8) = x := by
  simp only [packWrite, ← h, BitVec.extractLsb'_append_extractLsb'_eq_extractLsb', BitVec.extractLsb'_eq_self]

/-- The three sub-fields of an embedded ATA command, put together (R204). -/
theorem append_extractLsb'_cdb (cdb : BitVec 128) :
    cdb.extractLsb' 112 16 ++ cdb.extractLsb' 56 56 ++ cdb.extractLsb' 0 56 = cdb := by
  simp only [BitVec.extractLsb'_append_extractLsb'_eq_extractLsb', BitVec.extractLsb'_eq_self]

/-! ### An opcode's fields and its instruction -/

/-- The fields of an instruction name it, in every layout. -/
theorem instrOfParts_of_parts {L : Layout} {i : Instr} {p : Parts} (h : i.parts L = some p) (he : i.encodable = true) :
    ∃ o, p.opc = L.opcode o ∧ instrOfParts o p = .ok i := by
  cases i <;> cases h
  case devPassthru hd wbuf0 coreBuf cdb st =>
    have hdup : hd.dupChk ≠ 1 := by
      intro e
      simp [Instr.encodable, e] at he
    refine ⟨.devPassthru, rfl, ?_⟩
    simp only [instrOfParts, if_neg hdup, pad8_extract, pad16_extract, append_extractLsb'_cdb, ne_eq, not_true_eq_false, or_self,
      if_false]
  all_goals
    refine ⟨_, rfl, ?_⟩
    simp only [instrOfParts, plainParts, packRead_extract, packWrite_extract, pad32_extract, pad8_extract, and_self, if_true]

/-- A command has fields, and a duplicated one has no sub-fields (R114, R200). -/
theorem aux_of_parts {L : Layout} {i : Instr} {p : Parts} (h : i.parts L = some p) (he : i.encodable = true) :
    p.hdr.dupChk = 1 → p.aux0 = 0 ∧ p.aux1 = 0 ∧ p.aux2 = 0 := by
  cases i <;> cases h
  case devPassthru hd wbuf0 coreBuf cdb st =>
    intro e
    simp [Instr.encodable, show hd.dupChk = 1 from e] at he
  all_goals exact fun _ => ⟨rfl, rfl, rfl⟩

theorem and_of_ite_ok {c : Prop} [Decidable c] {i j : Instr} {e : DecodeError}
    (h : (if c then Except.ok j else Except.error e) = Except.ok i) : c ∧ j = i := by
  split_ifs at h with hc
  exact ⟨hc, Except.ok.inj h⟩

/-- The instruction an opcode's fields name has these fields. -/
theorem parts_of_instrOfParts {L : Layout} {o : Opcode} {i : Instr} {p : Parts} (h : instrOfParts o p = .ok i)
    (ho : p.opc = L.opcode o) :
    i.opBytes = none ∧ i.parts L = some p := by
  obtain ⟨opc, hdr, src, dst, aux0, aux1, aux2, st⟩ := p
  obtain rfl : opc = L.opcode o := ho
  cases o <;> simp only [instrOfParts] at h
  case devPassthru =>
    split_ifs at h with hdup hz
    simp only [ne_eq, not_or, not_not] at hz
    obtain ⟨hs, hd, ha⟩ := hz
    cases h
    simp only [Instr.opBytes, Instr.parts, extractLsb'_cdb, pad8_of_extract hs, pad8_of_extract hd, pad16_of_extract ha, and_self]
  all_goals replace h := and_of_ite_ok h
  case null | reset | shutdown | sataReinit =>
    obtain ⟨⟨⟨rfl, rfl, rfl⟩, rfl, rfl⟩, rfl⟩ := h
    exact ⟨rfl, rfl⟩
  case getReg | seqAdvance =>
    obtain ⟨⟨⟨rfl, rfl, rfl⟩, rfl⟩, rfl⟩ := h
    exact ⟨rfl, rfl⟩
  case cancel =>
    obtain ⟨⟨⟨rfl, rfl, rfl⟩, hs, rfl⟩, rfl⟩ := h
    simp only [Instr.opBytes, Instr.parts, plainParts, pad8_of_extract hs, and_self]
  case trim =>
    obtain ⟨⟨⟨rfl, rfl, rfl⟩, hd⟩, rfl⟩ := h
    simp only [Instr.opBytes, Instr.parts, plainParts, pad32_of_extract hd, and_self]
  case getParams =>
    obtain ⟨⟨⟨rfl, rfl, rfl⟩, hs, hd⟩, rfl⟩ := h
    simp only [Instr.opBytes, Instr.parts, plainParts, pad32_of_extract hs, pad8_of_extract hd, and_self]
  case setParams =>
    obtain ⟨⟨⟨rfl, rfl, rfl⟩, hs, hd⟩, rfl⟩ := h
    simp only [Instr.opBytes, Instr.parts, plainParts, pad8_of_extract hs, pad32_of_extract hd, and_self]
  case pageRead | extRead =>
    obtain ⟨⟨⟨rfl, rfl, rfl⟩, hd⟩, rfl⟩ := h
    simp only [Instr.opBytes, Instr.parts, plainParts, packRead_of_extract hd, and_self]
  case pageWrite | extWrite =>
    obtain ⟨⟨⟨rfl, rfl, rfl⟩, hs⟩, rfl⟩ := h
    simp only [Instr.opBytes, Instr.parts, plainParts, packWrite_of_extract hs, and_self]
  all_goals
    obtain ⟨⟨rfl, rfl, rfl⟩, rfl⟩ := h
    exact ⟨rfl, rfl⟩

end Sys2Proof
end

section
/-! Decode and encode agree (30_encoding.md sections 1, 2 and 5), and with them the encoder's answers and the steps of the port. -/

namespace Sys2Proof.Machine

open Sys2Proof

section
variable {L : Layout}

/-- The decoder's checks of a word accept an encoding. -/
theorem splitWord_joinParts (ha : L.admissible = true) (hu : L.unambiguous = true) (ho : L.holdsOperands = true) {p : Parts}
    (hd : p.hdr.dupChk = 1 → p.aux0 = 0 ∧ p.aux1 = 0 ∧ p.aux2 = 0) : splitWord L (joinParts L p) = .ok p := by
  obtain ⟨hw, hm, -, -, hwide, hh⟩ := Layout.admissible_iff.1 ha
  obtain ⟨-, -, -, nid⟩ := L.stamped_wide hwide ho
  have hread := readParts_joinParts ha hu p ho hd
  have polarity : ¬ (L.polarityFields.any fun f => (joinParts L p).getField f != p.stamp.odd.setWidth 64) = true := by
    rw [List.any_eq_true]
    rintro ⟨f, hf, hne⟩
    simp [getField_joinParts_polarity ha hu p hf] at hne
  have mirrored : ¬ (p.hdr.dupChk = 1 ∧ ((joinParts L p).w3 ≠ (joinParts L p).w0 ∨ (joinParts L p).w4 ≠ (joinParts L p).w1
      ∨ (joinParts L p).w5.extractLsb' 0 62 ≠ (joinParts L p).w2.extractLsb' 0 62)) := by
    rintro ⟨hdup, hne⟩
    have hdup' : (p.builtWord L).getField L.dupChk = 1 := by
      rw [getField_builtWord hw hu p (v := p.hdr.dupChk) (by simp [Parts.builtFields]) (dupChk_wide hw), setWidth_eq_one_iff, hdup]
    obtain ⟨h3, h4, h5, -⟩ := finalize_duplication (p.builtWord L) p.stamp.odd p.stamp.slot p.stamp.seq p.stamp.dealloc
      p.stamp.xsum hw hm hh hdup'
    rw [finalize_builtWord ha hu] at h3 h4 h5
    exact hne.elim (· h3) (·.elim (· h4) (· h5))
  have dealloc : ¬ (p.stamp.dealloc = none ∧ (joinParts L p).getField L.deallocId ≠ 0) := by
    rintro ⟨hnone, hne⟩
    rw [getField_joinParts hw hu p (v := p.stamp.dealloc.getD 0) (by simp [Layout.protectedFields, Layout.header])
      (by simp [Parts.fields]) nid, hnone] at hne
    exact hne rfl
  have same : ((msbFields ++ L.xsumFields).any fun f => (joinParts L p).getField f != (joinParts L p).getField f) = false := by
    simp only [bne_self_eq_false, List.any_eq_false, Bool.false_eq_true, not_false_eq_true, implies_true]
  simp only [splitWord, hread, if_neg polarity, if_neg mirrored, if_neg dealloc, same,
    Bool.false_eq_true, if_false, ne_eq, not_true_eq_false]

/-- The word of a command decodes to it. -/
theorem decodeWord_joinParts (ha : L.admissible = true) (hu : L.unambiguous = true) (ho : L.holdsOperands = true) {i : Instr}
    {p : Parts} (hp : i.parts L = some p) (he : i.encodable = true) : decodeWord L (joinParts L p) = .ok i := by
  obtain ⟨hw, -, -, -, hwide, -⟩ := Layout.admissible_iff.1 ha
  obtain ⟨nopc, -⟩ := L.operands_wide hwide ho
  obtain ⟨o, hopc, hinstr⟩ := instrOfParts_of_parts hp he
  have hin : L.opcodeIn (joinParts L p) = some o := by
    rw [Layout.opcodeIn_eq_some_iff (Layout.codesFit_of_unambiguous hu), ← hopc]
    exact getField_joinParts hw hu p (by simp [Layout.protectedFields, Layout.header]) (by simp [Parts.fields]) nopc
  simp only [decodeWord, hin, splitWord_joinParts ha hu ho (aux_of_parts hp he), hinstr]

theorem parts_isSome_of_opBytes {i : Instr} (h : i.opBytes = none) : ∃ p, i.parts L = some p := by
  cases i <;> first | exact ⟨_, rfl⟩ | cases h

theorem decode_encode (ha : L.admissible = true) (hu : L.unambiguous = true) (ho : L.holdsOperands = true) {i : Instr}
    (he : i.encodable = true) : decode L (encode L i) = .ok i := by
  cases hop : i.opBytes with
  | some a => simp only [encode, hop, decode, decodeHostOp_opBytes hop]
  | none =>
    obtain ⟨p, hp⟩ := parts_isSome_of_opBytes (L := L) hop
    simp only [encode, hop, hp, decode, decodeCommand_bytes, decodeWord_joinParts ha hu ho hp he]

/-- What the checks of a word accept are fields that make the word. -/
theorem joinParts_of_splitWord {W : CmdWord} {p : Parts} (h : splitWord L W = .ok p) : p = readParts L W ∧ joinParts L p = W := by
  simp only [splitWord] at h
  split_ifs at h with _ _ _ _ hV
  cases h
  exact ⟨rfl, not_not.1 hV⟩

theorem encode_of_decodeWord {W : CmdWord} {i : Instr} (h : decodeWord L W = .ok i) : encode L i = .command W.bytes := by
  unfold decodeWord at h
  split at h
  next => split_ifs at h
  next o hin =>
    split at h
    next => cases h
    next p hsplit =>
      obtain ⟨rfl, hjoin⟩ := joinParts_of_splitWord hsplit
      have hopc : (readParts L W).opc = L.opcode o := by
        simp only [Layout.opcodeIn, Layout.opcodeOf] at hin
        split_ifs at hin
        exact (beq_iff_eq.1 (List.find?_some (p := fun o => L.opcode o == (W.getField L.opc).setWidth 8) hin)).symm
      obtain ⟨hop, hparts⟩ := parts_of_instrOfParts h hopc
      simp only [encode, hop, hparts, hjoin]

end

/-- Settles O2: each argument and each field reads back what was written, and `splitWord` accepts only the word its fields
make. -/
theorem decodeAndEncodeAgree : Obligations.DecodeAndEncodeAgree :=
  ⟨fun _ _ ha hu ho he => decode_encode ha hu ho he, fun _ _ _ h => encode_of_decodeWord h⟩

/-! ### Steps of the port -/

/-- Settles O4. -/
theorem stepRunsDecoded : Obligations.StepRunsDecoded := by
  intro s q rest i hc hin hd
  rw [step, if_neg (by simp [hc]), hin]
  simp only [stepRequest, hd]

/-- Settles O5: the round trip of the encoding under the rule of a step. -/
theorem stepRunsEncoded : Obligations.StepRunsEncoded := by
  intro s rest i hc hu ho hin he
  have ha := hc
  simp only [State.configOk, Bool.and_eq_true] at ha
  obtain ⟨-, ha⟩ := ha
  exact stepRunsDecoded s _ rest i hc hin (decode_encode ha hu ho he)

/-- Settles O6. -/
theorem reservedOperationRaisesBadOp : Obligations.ReservedOperationRaisesBadOp := by
  intro s b args rest hc hin h12 h16
  rw [step, if_neg (by simp [hc]), hin]
  simp only [stepRequest, decode, decodeHostOp, if_neg (Nat.not_le.2 h16), if_pos h12]
  rfl

/-- Settles O1: six words of 30_encoding.md, evaluated. -/
theorem writtenWordsDecode : Obligations.WrittenWordsDecode := by
  refine ⟨?_, ?_, ?_, ?_, ?_, ?_⟩ <;> rfl

end Sys2Proof.Machine
end

section
/-! What the encoder answers for a well-formed command is the command's encoding, so it decodes to the command
(40_cmdgen.md sections 1 and 6, 30_encoding.md sections 1 and 2). -/

namespace Sys2Proof

/-! ### Well-formed headers -/

section
variable (h : CmdHdr)

theorem CmdHdr.ok_iff : h.ok = true ↔ h.dir ≠ 3 ∧ h.msize ≠ 3 ∧ (h.dir = 0 → h.dsize = 0) := by
  simp only [CmdHdr.ok, CmdHdr.dirOk, CmdHdr.msizeOk, CmdHdr.dsizeOk, Bool.and_eq_true, bne_iff_ne, Bool.or_eq_true, beq_iff_eq,
    and_assoc, ne_eq, ← imp_iff_not_or]

theorem CmdHdr.noData_iff : h.noData = true ↔ h.dir = 0 ∧ h.msize ≠ 3 ∧ h.dsize = 0 := by
  rw [CmdHdr.noData, Bool.and_eq_true, CmdHdr.ok_iff, beq_iff_eq]
  constructor
  · rintro ⟨⟨-, hm, hz⟩, hd⟩
    exact ⟨hd, hm, hz hd⟩
  · rintro ⟨hd, hm, hz⟩
    exact ⟨⟨by simp [hd], hm, fun _ => hz⟩, hd⟩

theorem CmdHdr.d2h_iff : h.d2h = true ↔ h.dir = 2 ∧ h.msize ≠ 3 := by
  rw [CmdHdr.d2h, Bool.and_eq_true, CmdHdr.ok_iff, beq_iff_eq]
  constructor
  · rintro ⟨⟨-, hm, -⟩, hd⟩
    exact ⟨hd, hm⟩
  · rintro ⟨hd, hm⟩
    exact ⟨⟨by simp [hd], hm, by simp [hd]⟩, hd⟩

theorem CmdHdr.h2d_iff : h.h2d = true ↔ h.dir = 1 ∧ h.msize ≠ 3 := by
  rw [CmdHdr.h2d, Bool.and_eq_true, CmdHdr.ok_iff, beq_iff_eq]
  constructor
  · rintro ⟨⟨-, hm, -⟩, hd⟩
    exact ⟨hd, hm⟩
  · rintro ⟨hd, hm⟩
    exact ⟨⟨by simp [hd], hm, by simp [hd]⟩, hd⟩

end

theorem Instr.encodable_of_wf {i : Instr} (h : i.wf = true) : i.encodable = true := by
  cases i
  case devPassthru =>
    simp only [Instr.wf, Bool.and_eq_true] at h
    obtain ⟨⟨⟨-, h⟩, -⟩, -⟩ := h
    exact h
  all_goals rfl

/-- A value in the low bits of a field is the value widened. -/
theorem zero_append_eq_setWidth {m n : Nat} (v : BitVec n) : (0 : BitVec m) ++ v = v.setWidth (m + n) := by
  apply BitVec.eq_of_toNat_eq
  have hv : v.toNat < 2 ^ (m + n) := v.isLt.trans_le (Nat.pow_le_pow_right (by omega) (by omega))
  simp [BitVec.toNat_append, Nat.mod_eq_of_lt hv]

theorem Layout.opcode_injective {L : Layout} (hu : L.unambiguous = true) {o o' : Opcode} (h : L.opcode o = L.opcode o') : o = o' :=
  Option.some.inj (((Layout.opcodeOf_eq_some_iff (Layout.codesFit_of_unambiguous hu) _ _).2 rfl).symm.trans
    ((Layout.opcodeOf_eq_some_iff (Layout.codesFit_of_unambiguous hu) _ _).2 h.symm))

end Sys2Proof

namespace Sys2Proof.Machine

open Sys2Proof

theorem cdbByte_one_protocol (cdb : BitVec 128) : (cdbByte cdb 1 >>> 1).setWidth 4 = (cdb.extractLsb' 9 4 : BitVec 4) := by
  apply BitVec.eq_of_getLsbD_eq
  intro i hi
  rw [cdbByte_eq]
  simp [hi, show 1 + i < 8 by omega, show 8 + (1 + i) = 9 + i by omega]

/-- Of a well-formed passthrough the padded command is the command (R201, R204). -/
theorem cdbPadded_of_formOk {cdb : BitVec 128} (h : cdbFormOk cdb = true) :
    ((cdb.extractLsb' 0 8 : Byte) = 0x85 ∨ (cdb.extractLsb' 0 8 : Byte) = 0xA1) ∧ cdbPadded cdb = cdb := by
  have hb : cdbByte cdb 0 = cdb.extractLsb' 0 8 := cdbByte_eq cdb 0
  simp only [cdbFormOk, hb, Bool.or_eq_true, Bool.and_eq_true, beq_iff_eq] at h
  refine ⟨h.imp_right And.left, ?_⟩
  rw [cdbPadded]
  rcases h with h | ⟨h, hz⟩
  · rw [if_neg (by rw [h]; decide)]
  · rw [if_pos h]
    apply BitVec.eq_of_getLsbD_eq
    intro i hi
    have e : i < 96 ∨ cdb.getLsbD i = false := by
      by_cases h96 : i < 96
      · exact .inl h96
      · have e := congrArg (fun v => v.getLsbD (i - 96)) hz
        simp only [BitVec.getLsbD_ushiftRight, show 96 + (i - 96) = i by omega] at e
        exact .inr (by simpa using e)
    rw [BitVec.getLsbD_setWidth, BitVec.getLsbD_setWidth, decide_eq_true hi, Bool.true_and]
    rcases e with e | e <;> simp only [e, decide_true, Bool.true_and, Bool.and_false]

section
variable {s : State} (ha : s.params.layout.admissible = true) (hu : s.params.layout.unambiguous = true)
include ha hu

/-- What a well-formed command with the configured `DUPCHK` answers is the word of its fields. -/
theorem exec_wf_command {i : Instr} {p : Parts} (hp : i.parts s.params.layout = some p) (hwf : i.wf = true)
    (hc : p.opc = s.params.layout.opcode .devPassthru ∨ p.hdr = configuredHdr s.params.cfg p.hdr) :
    exec i s = .next (s.answered (Response.ofWord (joinParts s.params.layout p))) := by
  have cfg {o : Opcode} (ho : o ≠ .devPassthru) {h : CmdHdr} {src dst : BitVec 56} {st : Stamp}
      (hp : plainParts s.params.layout o h src dst st = p) : configuredHdr s.params.cfg h = h := by
    subst hp
    rcases hc with hc | hc
    · exact absurd (Layout.opcode_injective hu hc) ho
    · exact hc.symm
  have noData {o : Opcode} (ho : o ≠ .devPassthru) {h : CmdHdr} {src dst : BitVec 56} {st : Stamp}
      (hp : plainParts s.params.layout o h src dst st = p) (hz : h.dsize = 0) :
      plainParts s.params.layout o { (configuredHdr s.params.cfg h) with dsize := 0 } src dst st = p := by
    rw [cfg ho hp, ← hz]
    exact hp
  have raw {o : Opcode} (ho : o.builtByRaw = true) {h : CmdHdr} {a b : BitVec 56} {st : Stamp}
      (hp : plainParts s.params.layout o h a b st = p) (hok : h.ok = true) :
      s.encodeCommand h st (rawReq s.params.layout o a b) = .next (s.answered (Response.ofWord (joinParts s.params.layout p))) := by
    obtain ⟨hd, hm, hz⟩ := (CmdHdr.ok_iff h).1 hok
    have hzero : (if h.dir = 0 then 0 else h.dsize) = h.dsize := by
      split_ifs with h0
      · exact (hz h0).symm
      · rfl
    have e := State.encodeCommand_raw (st := st) ha hu hm ho a b hd
    rw [hzero, cfg (by rintro rfl; cases ho) hp] at e
    exact hp ▸ e
  cases i <;> simp only [Instr.parts, reduceCtorEq, Option.some.injEq, zero_append_eq_setWidth, packRead_eq, packWrite_eq] at hp <;>
    simp only [Instr.wf, Bool.and_eq_true, beq_iff_eq] at hwf
  case null h st =>
    obtain ⟨hd, hm, hz⟩ := (CmdHdr.noData_iff h).1 hwf
    rw [← noData (by decide) hp hz]
    exact ((bareCommandsAnswer s h st ha hu hm).1 hd).1
  case cmdReset h st =>
    obtain ⟨hd, hm, hz⟩ := (CmdHdr.noData_iff h).1 hwf
    rw [← noData (by decide) hp hz]
    exact ((bareCommandsAnswer s h st ha hu hm).1 hd).2.1
  case shutdown h st =>
    obtain ⟨hd, hm, hz⟩ := (CmdHdr.noData_iff h).1 hwf
    rw [← noData (by decide) hp hz]
    exact ((bareCommandsAnswer s h st ha hu hm).1 hd).2.2.1
  case sataReinit h st =>
    obtain ⟨hd, hm, hz⟩ := (CmdHdr.noData_iff h).1 hwf
    rw [← noData (by decide) hp hz]
    exact ((bareCommandsAnswer s h st ha hu hm).1 hd).2.2.2
  case getReg h a st =>
    obtain ⟨hd, hm, hz⟩ := (CmdHdr.noData_iff h).1 hwf
    obtain ⟨answers, -⟩ := (controlCommandsAnswer s h st a 0 0 0 ha hu hm).1 hd
    rw [← noData (by decide) hp hz]
    exact answers
  case putReg h a b st =>
    obtain ⟨hd, hm, hz⟩ := (CmdHdr.noData_iff h).1 hwf
    obtain ⟨-, answers, -⟩ := (controlCommandsAnswer s h st a b 0 0 ha hu hm).1 hd
    rw [← noData (by decide) hp hz]
    exact answers
  case trim h a count st =>
    obtain ⟨hd, hm, hz⟩ := (CmdHdr.noData_iff h).1 hwf
    obtain ⟨-, -, answers, -⟩ := (controlCommandsAnswer s h st a 0 count 0 ha hu hm).1 hd
    rw [← noData (by decide) hp hz]
    exact answers
  case cancel h target st =>
    obtain ⟨hd, hm, hz⟩ := (CmdHdr.noData_iff h).1 hwf
    obtain ⟨-, -, -, answers, -⟩ := (controlCommandsAnswer s h st 0 0 0 target ha hu hm).1 hd
    rw [← noData (by decide) hp hz]
    exact answers
  case seqAdvance h a st =>
    obtain ⟨hnd, hcount⟩ := hwf
    obtain ⟨hd, hm, hz⟩ := (CmdHdr.noData_iff h).1 hnd
    obtain ⟨h0, h32⟩ := (seqCountOk_iff a).1 hcount
    obtain ⟨-, -, -, -, answers, -⟩ := (controlCommandsAnswer s h st a 0 0 0 ha hu hm).1 hd
    rw [← noData (by decide) hp hz]
    exact answers h0 h32
  case pageRead h lba n b0 st =>
    obtain ⟨⟨hdir, hpage⟩, rfl⟩ := hwf
    obtain ⟨hd, hm⟩ := (CmdHdr.d2h_iff h).1 hdir
    have hpage : h.dsize = 3 := beq_iff_eq.1 hpage
    have answers := ((transferCommandsAnswer s h st lba 0 0 b0 0 0 ha hu hm).1 hd).1 _ List.mem_cons_self
    simp only [if_pos hpage, cfg (by decide) hp] at answers
    exact hp ▸ answers
  case extRead h lba n b0 st =>
    obtain ⟨hdir, hcount⟩ := hwf
    obtain ⟨hd, hm⟩ := (CmdHdr.d2h_iff h).1 hdir
    simp only [CmdHdr.extCount, Bool.and_eq_true, bne_iff_ne, ne_eq, beq_iff_eq] at hcount
    obtain ⟨hpage, rfl⟩ := hcount
    have answers := ((transferCommandsAnswer s h st lba 0 ((1 : Byte) <<< h.dsize.toNat) b0 0 0 ha hu hm).1 hd).1 _ (List.mem_cons_of_mem _ List.mem_cons_self)
    simp only [if_neg hpage, cfg (by decide) hp] at answers
    exact hp ▸ answers
  case pageWrite h b0 n b1 b2 lba st =>
    obtain ⟨⟨hdir, hpage⟩, rfl⟩ := hwf
    obtain ⟨hd, hm⟩ := (CmdHdr.h2d_iff h).1 hdir
    have hpage : h.dsize = 3 := beq_iff_eq.1 hpage
    have answers := ((transferCommandsAnswer s h st lba 0 0 b0 b1 b2 ha hu hm).2.1 hd).1 _ List.mem_cons_self
    simp only [if_pos hpage, cfg (by decide) hp] at answers
    exact hp ▸ answers
  case extWrite h b0 n b1 b2 lba st =>
    obtain ⟨hdir, hcount⟩ := hwf
    obtain ⟨hd, hm⟩ := (CmdHdr.h2d_iff h).1 hdir
    simp only [CmdHdr.extCount, Bool.and_eq_true, bne_iff_ne, ne_eq, beq_iff_eq] at hcount
    obtain ⟨hpage, rfl⟩ := hcount
    have answers := ((transferCommandsAnswer s h st lba 0 ((1 : Byte) <<< h.dsize.toNat) b0 b1 b2 ha hu hm).2.1 hd).1 _
      (List.mem_cons_of_mem _ List.mem_cons_self)
    simp only [if_neg hpage, cfg (by decide) hp] at answers
    exact hp ▸ answers
  case getParams h param b0 st =>
    obtain ⟨hd, hm⟩ := (CmdHdr.d2h_iff h).1 hwf
    have answers := ((transferCommandsAnswer s h st 0 param 0 b0 0 0 ha hu hm).1 hd).2
    simp only [cfg (by decide) hp] at answers
    exact hp ▸ answers
  case setParams h b0 param st =>
    obtain ⟨hd, hm⟩ := (CmdHdr.h2d_iff h).1 hwf
    have answers := ((transferCommandsAnswer s h st 0 param 0 b0 0 0 ha hu hm).2.1 hd).2
    simp only [cfg (by decide) hp] at answers
    exact hp ▸ answers
  case devPassthru h wbuf0 coreBuf cdb st =>
    obtain ⟨⟨⟨hok, hdup⟩, hform⟩, hproto⟩ := hwf
    obtain ⟨hd3, hm, hz⟩ := (CmdHdr.ok_iff h).1 hok
    obtain ⟨hop, hpad⟩ := cdbPadded_of_formOk hform
    simp only [cdbProtoOk, cdbByte_one_protocol, Bool.or_eq_true, Bool.and_eq_true, beq_iff_eq, or_assoc] at hproto
    have answers := (passthroughCommandAnswers s h st wbuf0 coreBuf cdb ha hu hm).1 hop hproto
    have hzero : (if h.dir = 0 then 0 else h.dsize) = h.dsize := by
      split_ifs with h0
      · exact (hz h0).symm
      · rfl
    rw [cdbPadded] at hpad
    rw [hpad, hzero, ← hdup] at answers
    exact hp ▸ answers
  all_goals exact raw rfl hp hwf

end

/-- Settles O34: a well-formed command answers its own encoding, and that decodes to it. -/
theorem commandAnswerDecodes : Obligations.CommandAnswerDecodes := by
  intro i s p ha hu ho hp hwf hc
  refine ⟨_, exec_wf_command ha hu hp hwf hc, ?_⟩
  exact (decodeCommand_bytes _ _).trans (decodeWord_joinParts ha hu ho hp (Instr.encodable_of_wf hwf))

end Sys2Proof.Machine
end

section
/-! What the steps of a POLL up to its end can do (42_status_decoder.md R280): the polled token observes, decodes and times out,
other active tokens may be armed or have their words written again, and nothing else changes.  The relation compares a later
state with an earlier one, so that the steps chain by one lemma per named update. -/

namespace Sys2Proof.Machine

open Sys2Proof

/-- The writes of command slots, in order (20_memory.md R85). -/
def State.memoryAfter (s : State) (l : List (Nat × CmdWord)) : Memory :=
  l.foldl (fun m p => m.writeBytes (s.cmdAddr p.1) p.2.bytes) s.mem

/-- What a POLL can do to a slot: lifecycle state, polarity, generic count and cache stay, times come from `now`, the result may
change in the polled slot alone and is never taken away. -/
structure Slot.PollStep (polled : Prop) (now : Nat) (sl sl' : Slot) : Prop where
  odd : sl'.odd = sl.odd
  cache : sl'.cache = sl.cache
  st : sl'.tok.st = sl.tok.st
  tokOdd : sl'.tok.odd = sl.tok.odd
  generic : sl'.tok.ctrGeneric = sl.tok.ctrGeneric
  times : ∀ n, now ≤ n → sl.tok.timesBy n → sl'.tok.timesBy n
  result : sl.tok.result ≠ .none → sl'.tok.result ≠ .none
  other : ¬ polled → sl'.tok.result = sl.tok.result

/-- From `s` to `t` a POLL of slot `i` at `now` went some steps. -/
structure State.PollStep (s : State) (i now : Nat) (t : State) : Prop where
  params : t.params = s.params
  numSlots : t.numSlots = s.numSlots
  seqNext : t.seqNext = s.seqNext
  active : t.active = s.active
  lastNow : t.lastNow = s.lastNow
  refreshGeneral : t.refreshGeneral = s.refreshGeneral
  refreshReserved : t.refreshReserved = s.refreshReserved
  err : t.resp.err = s.resp.err
  unspecSeen : s.unspecSeen = true → t.unspecSeen = true
  dead : s.run = .dead → t.run = .dead
  slot : ∀ j, (s.slotAt j).PollStep (j = i) now (t.slotAt j)
  idle : ∀ j, j ≠ i → j ∉ s.active → t.slotAt j = s.slotAt j
  written : ∃ l, t.submitted = s.submitted ++ l ∧ t.mem = s.memoryAfter l ∧ (∀ p ∈ l, p.1 = i ∨ p.1 ∈ s.active)
    ∧ (s.run = .dead → l = [])

/-! ### The named updates -/

theorem Slot.PollStep.refl (p : Prop) (now : Nat) (sl : Slot) : sl.PollStep p now sl :=
  ⟨rfl, rfl, rfl, rfl, rfl, fun _ _ h => h, fun h => h, fun _ => rfl⟩

theorem Slot.PollStep.trans {p : Prop} {now : Nat} {sl sl' sl'' : Slot} (h : sl.PollStep p now sl') (k : sl'.PollStep p now sl'') :
    sl.PollStep p now sl'' :=
  ⟨k.odd.trans h.odd, k.cache.trans h.cache, k.st.trans h.st, k.tokOdd.trans h.tokOdd, k.generic.trans h.generic,
    fun n hn x => k.times n hn (h.times n hn x), fun x => k.result (h.result x), fun x => (k.other x).trans (h.other x)⟩

section
variable {s u v : State} {i now : Nat}

theorem State.memoryAfter_append (s : State) (l l' : List (Nat × CmdWord)) :
    s.memoryAfter (l ++ l') = l'.foldl (fun m p => m.writeBytes (s.cmdAddr p.1) p.2.bytes) (s.memoryAfter l) := List.foldl_append

theorem State.PollStep.refl (s : State) : s.PollStep i now s :=
  ⟨rfl, rfl, rfl, rfl, rfl, rfl, rfl, rfl, fun h => h, fun h => h, fun _ => .refl _ _ _, fun _ _ _ => rfl,
    ⟨[], (List.append_nil _).symm, rfl, nofun, fun _ => rfl⟩⟩

theorem State.PollStep.trans (h : s.PollStep i now u) (k : u.PollStep i now v) : s.PollStep i now v := by
  refine ⟨k.params.trans h.params, k.numSlots.trans h.numSlots, k.seqNext.trans h.seqNext, k.active.trans h.active,
    k.lastNow.trans h.lastNow, k.refreshGeneral.trans h.refreshGeneral, k.refreshReserved.trans h.refreshReserved,
    k.err.trans h.err, fun x => k.unspecSeen (h.unspecSeen x), fun x => k.dead (h.dead x), fun j => (h.slot j).trans (k.slot j),
    fun j hj ha => (k.idle j hj (h.active ▸ ha)).trans (h.idle j hj ha), ?_⟩
  obtain ⟨l, hsub, hmem, hslots, hdead⟩ := h.written
  obtain ⟨l', hsub', hmem', hslots', hdead'⟩ := k.written
  have haddr (j : Nat) : u.cmdAddr j = s.cmdAddr j := by rw [State.cmdAddr, h.params, State.cmdAddr]
  refine ⟨l ++ l', by rw [hsub', hsub, List.append_assoc], ?_, fun p hp => ?_, fun x => ?_⟩
  · rw [s.memoryAfter_append, hmem', State.memoryAfter, hmem]
    simp only [haddr]
  · exact (List.mem_append.1 hp).elim (hslots p) fun hp => h.active ▸ hslots' p hp
  · rw [hdead x, hdead' (h.dead x)]
    rfl

/-- An update that touches neither the slots, memory, nor what a POLL leaves alone. -/
theorem State.PollStep.frame (h : s.PollStep i now u) (hs : v.slots = u.slots) (hp : v.params = u.params := by rfl)
    (hq : v.seqNext = u.seqNext := by rfl) (ha : v.active = u.active := by rfl) (hl : v.lastNow = u.lastNow := by rfl)
    (hg : v.refreshGeneral = u.refreshGeneral := by rfl) (hr : v.refreshReserved = u.refreshReserved := by rfl)
    (he : v.resp.err = u.resp.err := by rfl) (hu : u.unspecSeen = true → v.unspecSeen = true := by exact fun h => h)
    (hd : u.run = .dead → v.run = .dead := by exact fun h => h) (hw : v.submitted = u.submitted := by rfl)
    (hm : v.mem = u.mem := by rfl) : s.PollStep i now v := by
  have hslot (j : Nat) : v.slotAt j = u.slotAt j := by rw [State.slotAt, hs, State.slotAt]
  refine h.trans ⟨hp, by rw [State.numSlots, hs, State.numSlots], hq, ha, hl, hg, hr, he, hu, hd, fun j => ?_, fun j _ _ => hslot j,
    ⟨[], by rw [hw, List.append_nil], hm, nofun, fun _ => rfl⟩⟩
  rw [hslot]
  exact .refl _ _ _

theorem State.PollStep.modSlot {j : Nat} {f : Slot → Slot} (hj : j = i ∨ j ∈ s.active)
    (hf : ∀ sl : Slot, sl.PollStep (j = i) now (f sl)) (h : s.PollStep i now u) : s.PollStep i now (u.modSlot j f) := by
  refine h.trans ⟨rfl, by simp, rfl, rfl, rfl, rfl, rfl, rfl, fun x => x, fun x => x, fun k => ?_, fun k hk ha => ?_,
    ⟨[], (List.append_nil _).symm, rfl, nofun, fun _ => rfl⟩⟩
  · rw [State.slotAt_modSlot]
    split
    next hk => exact hk.1 ▸ hf _
    next => exact .refl _ _ _
  · refine State.slotAt_modSlot_ne u j k f fun e => ?_
    subst e
    exact hj.elim hk (h.active ▸ ha)

/-- An update of a token: what it leaves is found by unfolding it. -/
theorem State.PollStep.modTok {j : Nat} {f : Token → Token} (h : s.PollStep i now u) (hj : j = i ∨ j ∈ s.active)
    (hst : ∀ t, (f t).st = t.st := by exact fun _ => rfl) (hodd : ∀ t, (f t).odd = t.odd := by exact fun _ => rfl)
    (hgen : ∀ t, (f t).ctrGeneric = t.ctrGeneric := by exact fun _ => rfl)
    (htimes : ∀ (t : Token) n, now ≤ n → t.timesBy n → (f t).timesBy n := by exact fun _ _ _ h => h)
    (hres : ∀ t : Token, t.result ≠ .none → (f t).result ≠ .none := by exact fun _ h => h)
    (hother : j ≠ i → ∀ t, (f t).result = t.result := by exact fun _ _ => rfl) : s.PollStep i now (u.modTok j f) :=
  .modSlot hj (fun sl => ⟨rfl, rfl, hst sl.tok, hodd sl.tok, hgen sl.tok, htimes sl.tok, hres sl.tok, fun x => hother x sl.tok⟩) h

theorem State.PollStep.modCtr {f : RetryCtr → RetryCtr} (h : s.PollStep i now u) : s.PollStep i now (u.modCtr i f) :=
  .modSlot (.inl rfl) (fun _ => ⟨rfl, rfl, rfl, rfl, rfl, fun _ _ h => h, fun h => h, fun _ => rfl⟩) h

/-- A result given to the polled token. -/
theorem State.PollStep.setResult {r : Result} {w : Reason} (hr : r ≠ .none) (h : s.PollStep i now u) :
    s.PollStep i now (u.setResult i r w) :=
  h.modTok (.inl rfl) (hres := fun _ _ => hr) (hother := fun x => absurd rfl x)

theorem State.PollStep.emit {e : Event} (h : s.PollStep i now u) : s.PollStep i now (u.emit e) := h.frame rfl

theorem State.PollStep.count {f : Stats → Stats} (h : s.PollStep i now u) : s.PollStep i now (u.count f) := h.frame rfl

theorem State.PollStep.abortHard {w : Reason} (h : s.PollStep i now u) : s.PollStep i now (u.abortHard i w) :=
  .emit ((h.setResult (r := .abortHard) (w := w) nofun).frame rfl (hd := fun _ => rfl))

theorem State.PollStep.unspecAbort {w : Reason} (h : s.PollStep i now u) :
    s.PollStep i now { u.setResult i .abort w with unspecSeen := true } :=
  (h.setResult (r := .abort) (w := w) nofun).frame rfl (hu := fun _ => rfl)

/-- A command slot is written while the device is not dead. -/
theorem State.PollStep.writeCmd {j : Nat} {W : CmdWord} (hj : j = i ∨ j ∈ s.active) (hrun : u.run ≠ .dead) (h : s.PollStep i now u) :
    s.PollStep i now (u.writeCmd j W) := by
  have hslot (k : Nat) : (u.writeCmd j W).slotAt k = u.slotAt k := by rw [State.writeCmd_slotAt]
  refine h.trans ⟨by simp, by simp, by simp, by simp, by simp, by simp, by simp, by simp, by simp, by simp,
    fun k => by rw [hslot]; exact .refl _ _ _, fun k _ _ => hslot k, ⟨[(j, W)], by simp, ?_, fun p hp => ?_, fun x => absurd x hrun⟩⟩
  · rw [State.writeCmd_mem]
    rfl
  · obtain rfl := List.mem_singleton.1 hp
    exact h.active ▸ hj

theorem State.PollStep.ite {c : Prop} [Decidable c] (h : s.PollStep i now u) (k : s.PollStep i now v) :
    s.PollStep i now (if c then u else v) := by
  split
  · exact h
  · exact k

/-! ### Re-writes, lost commands, timeouts and out-of-order recovery (43_timeout_ooo.md) -/

/-- A token armed at `now`. -/
theorem State.PollStep.arm {j : Nat} {f : Token → Token} (h : s.PollStep i now u) (hj : j = i ∨ j ∈ s.active)
    (hst : ∀ t, (f t).st = t.st := by exact fun _ => rfl) (hodd : ∀ t, (f t).odd = t.odd := by exact fun _ => rfl)
    (hgen : ∀ t, (f t).ctrGeneric = t.ctrGeneric := by exact fun _ => rfl)
    (hissue : ∀ t, (f t).issueTime = t.issueTime := by exact fun _ => rfl) (harm : ∀ t, (f t).armedTime = now := by exact fun _ => rfl)
    (htouched : ∀ t, (f t).touchedTime = t.touchedTime := by exact fun _ => rfl)
    (hres : ∀ t, (f t).result = t.result := by exact fun _ => rfl) : s.PollStep i now (u.modTok j f) :=
  h.modTok hj hst hodd hgen (fun t _ hn x => ⟨hissue t ▸ x.1, harm t ▸ hn, htouched t ▸ x.2.2⟩) (fun t x => (hres t).symm ▸ x)
    fun _ => hres

theorem State.PollStep.rewrite {j : Nat} {cause : RewriteCause} (hj : j = i ∨ j ∈ s.active) (h : s.PollStep i now u) :
    s.PollStep i now (u.rewrite j cause now) := by
  rw [State.rewrite]
  split
  · exact h
  next hrun => exact .emit ((h.writeCmd hj hrun).modTok hj (htimes := fun _ _ hn x => ⟨hn, x.2⟩))

theorem State.PollStep.lostCheck (h : s.PollStep i now u) : s.PollStep i now (u.lostCheck i now) :=
  .ite (.count ((h.rewrite (.inl rfl)).modTok (.inl rfl))) h

theorem State.PollStep.oooTimeout (h : s.PollStep i now u) : s.PollStep i now (u.oooTimeout i now) := by
  have hr : s.PollStep i now ((u.rewrite i .oooTimeout now).count fun c => { c with oooReplay := c.oooReplay + 1 }) :=
    .count (h.rewrite (.inl rfl))
  rw [State.oooTimeout]
  exact .ite (hr.arm (.inl rfl)) (hr.arm (.inl rfl))

theorem Token.clearDealloc_cases (t : Token) (c : Cfg) : t.clearDealloc c = t ∨ t.clearDealloc c = { t with dealloc := none } := by
  rw [Token.clearDealloc]
  split
  · exact .inr rfl
  · exact .inl rfl

theorem State.PollStep.realTimeout (h : s.PollStep i now u) : s.PollStep i now (u.realTimeout i) := by
  have keeps {β : Type} {g : Token → β} (hg : ∀ t : Token, g { t with dealloc := none } = g t) (t : Token) (c : Cfg) :
      g (t.clearDealloc c) = g t := by
    obtain e | e := t.clearDealloc_cases c <;> rw [e]
    exact hg t
  have hc : s.PollStep i now ((if (u.tokAt i).quiet = true then u else u.emit (.log .warn i .timeout none)).count
      fun c => { c with timeout := c.timeout + 1 }) := .count (.ite h h.emit)
  rw [State.realTimeout]
  exact .setResult nofun (hc.modTok (.inl rfl) (hst := fun t => keeps (g := Token.st) (fun _ => rfl) t _)
    (hodd := fun t => keeps (g := Token.odd) (fun _ => rfl) t _) (hgen := fun t => keeps (g := Token.ctrGeneric) (fun _ => rfl) t _)
    (htimes := fun t n _ x => (keeps (g := fun t => t.timesBy n) (fun _ => rfl) t _).mpr x)
    (hres := fun t x => by rwa [keeps (g := Token.result) (fun _ => rfl) t]) (hother := fun x => absurd rfl x))

theorem State.PollStep.timeoutHandle (h : s.PollStep i now u) : s.PollStep i now (u.timeoutHandle i now) := by
  rw [State.timeoutHandle]
  split
  · exact .count h
  split
  · exact h.emit.arm (.inl rfl)
  · exact .ite h.oooTimeout h.realTimeout

theorem State.PollStep.timeoutCheck (h : s.PollStep i now u) : s.PollStep i now (u.timeoutCheck i now) := .ite h.timeoutHandle h

theorem State.PollStep.armMissing {qt : Nat} {l : List Nat} (hl : ∀ j ∈ l, j ∈ s.active) (h : s.PollStep i now u) :
    s.PollStep i now (u.armMissing now qt l) := by
  induction l generalizing u with
  | nil => exact h
  | cons j js ih =>
    rw [List.forall_mem_cons] at hl
    exact ih hl.2 (h.arm (.inr hl.1))

theorem State.PollStep.replayNow {l : List Nat} (hl : ∀ j ∈ l, j ∈ s.active) (h : s.PollStep i now u) :
    s.PollStep i now (u.replayNow now l) := by
  induction l generalizing u with
  | nil => exact h
  | cons j js ih =>
    rw [List.forall_mem_cons] at hl
    exact .ite h (ih hl.2 (.count (h.rewrite (.inr hl.1))))

/-- The search finds active tokens (R385). -/
theorem State.mem_active_of_seqSearch {m : BitVec 32} {j : Nat} (h : j ∈ s.seqSearch m) : j ∈ s.active := by
  have hm {k : Nat} (hk : k ∈ s.seqMatches m) : k ∈ s.active := (List.mem_filter.1 hk).1
  rw [State.seqSearch] at h
  split at h
  · cases h
  next a rest e =>
    refine hm (e ▸ ?_)
    split_ifs at h
    · exact List.mem_singleton.1 h ▸ List.mem_cons_self
    · exact (List.mem_cons.1 h).elim (fun e => e ▸ List.mem_cons_self) fun h => List.mem_cons_of_mem _ (List.mem_of_mem_take h)

theorem State.PollStep.oooHandle {x : Word} (h : s.PollStep i now u) : s.PollStep i now (u.oooHandle i x now) := by
  have hl {m : BitVec 32} : ∀ j ∈ u.seqSearch m, j ∈ s.active := fun j hj => h.active ▸ State.mem_active_of_seqSearch hj
  rw [State.oooHandle]
  split
  · exact h.emit
  · exact .ite (h.armMissing hl) (h.replayNow hl)
  · exact h.arm (.inl rfl)

/-! ### The decode of a status byte (42_status_decoder.md) -/

theorem State.PollStep.extFetched (h : s.PollStep i now u) : s.PollStep i now (u.extFetched i) := by
  rw [State.extFetched]
  exact h.modTok (.inl rfl)

theorem State.PollStep.freeWbufs (h : s.PollStep i now u) : s.PollStep i now (u.freeWbufs i) :=
  .ite h (h.emit.modTok (.inl rfl))

theorem State.PollStep.logExt {b : Byte} {level : LogLevel} {what : LogWhat} (h : s.PollStep i now u) :
    s.PollStep i now (u.logExt i b level what) :=
  .ite (.emit h.extFetched) h.emit

/-- A success leaves the reason alone (60_exceptions.md R402). -/
theorem State.PollStep.setOk (h : s.PollStep i now u) : s.PollStep i now (u.modTok i fun t => { t with result := .ok }) :=
  h.modTok (.inl rfl) (hres := fun _ _ => nofun) (hother := fun x => absurd rfl x)

theorem State.PollStep.success {b : Byte} (h : s.PollStep i now u) : s.PollStep i now (u.success i b) := by
  have hb : s.PollStep i now (u.successBuffers i b) := by
    rw [State.successBuffers]
    split
    · exact .ite (.emit (h.modTok (.inl rfl))) h
    · exact h.freeWbufs
  rw [State.success]
  exact .setOk (.ite (.emit (.count hb.extFetched)) hb)

theorem State.PollStep.earlyCommit (h : s.PollStep i now u) : s.PollStep i now (u.earlyCommit i) :=
  .ite (.emit (h.modTok (.inl rfl))) h

theorem State.PollStep.progress {c : StatusCode} (h : s.PollStep i now u) : s.PollStep i now (u.progress i c now) := by
  have ha : s.PollStep i now
      (u.modTok i fun t => { t.arm now (u.params.cfg.tmo t.cls (progressStage c)) with stage := progressStage c }) :=
    h.arm (.inl rfl)
  rw [State.progress]
  split
  · exact h
  · exact .ite ha.freeWbufs.earlyCommit ha

theorem State.PollStep.decFieldError (h : s.PollStep i now u) : s.PollStep i now (u.decFieldError i) := by
  have keeps {β : Type} {g : Token → β} (hg : ∀ t : Token, g { t with xferFromHost := false } = g t) (t : Token) :
      g (if t.cls = .write ∧ t.earlyCommitted = true then { t with xferFromHost := false } else t) = g t := by
    split
    · exact hg t
    · rfl
  exact .setResult nofun (h.count.modTok (.inl rfl) (hst := keeps (g := Token.st) fun _ => rfl)
    (hodd := keeps (g := Token.odd) fun _ => rfl) (hgen := keeps (g := Token.ctrGeneric) fun _ => rfl)
    (htimes := fun t n _ x => (keeps (g := fun t => t.timesBy n) (fun _ => rfl) t).mpr x)
    (hres := fun t x => by rwa [keeps (g := Token.result) (fun _ => rfl) t]) (hother := fun x => absurd rfl x))

theorem State.PollStep.unknownHw (h : s.PollStep i now u) : s.PollStep i now (u.unknownHw i) :=
  .ite h.count.abortHard (h.count.setResult nofun)

theorem State.PollStep.fcXsum (h : s.PollStep i now u) : s.PollStep i now (u.fcXsum i) :=
  .ite (h.modCtr.setResult nofun) (h.modCtr.setResult nofun)

theorem State.PollStep.fcWep (h : s.PollStep i now u) : s.PollStep i now (u.fcWep i) :=
  .ite (h.modCtr.setResult nofun) (h.modCtr.setResult nofun)

theorem State.PollStep.decIllegal {b : Byte} (h : s.PollStep i now u) : s.PollStep i now (u.decIllegal i b) := by
  have he := h.count (f := fun c => { c with illegal := c.illegal + 1 }) |>.extFetched
  rw [State.decIllegal]
  split
  · exact h.count.setResult nofun
  dsimp only
  split
  · exact he.abortHard
  · exact he.fcXsum
  · exact he.fcWep
  · exact he.setResult nofun
  · exact he.setResult nofun
  · exact he.unknownHw
  · exact he.unspecAbort

theorem State.PollStep.decDevWarning {b : Byte} (h : s.PollStep i now u) : s.PollStep i now (u.decDevWarning i b now) := by
  rw [State.decDevWarning]
  exact h.count.logExt.arm (.inl rfl)

theorem State.PollStep.decDupError (h : s.PollStep i now u) : s.PollStep i now (u.decDupError i) := by
  rw [State.decDupError]
  split
  · exact .setOk (.ite h.count.freeWbufs h.count)
  · exact .ite (h.count.setResult nofun) (h.count.setResult nofun)

theorem State.PollStep.decOoo {b : Byte} (h : s.PollStep i now u) : s.PollStep i now (u.decOoo i b now) := by
  have hs : s.PollStep i now ((u.count fun c => { c with ooo := c.ooo + 1 }).modTok i fun t => { t with seenInHw := true }) :=
    h.count.modTok (.inl rfl)
  rw [State.decOoo]
  split
  · exact h
  · exact .ite hs.extFetched.oooHandle hs

theorem State.PollStep.decodeCode {b : Byte} {c : StatusCode} (h : s.PollStep i now u) :
    s.PollStep i now (u.decodeCode i b now c) := by
  cases c with
  | queued | received | pending | sequenced => exact h.progress
  | collision => exact h.count.setResult nofun
  | fieldError => exact h.decFieldError
  | illegalCmd => exact h.decIllegal
  | exeError => exact .ite h.count.logExt.abortHard (h.count.setResult nofun)
  | eccError => exact .ite (h.count.modCtr.setResult nofun) (h.count.modCtr.setResult nofun)
  | unknownHw => exact h.unknownHw
  | xsumError => exact .ite (h.count.modCtr.setResult nofun) h.count.modCtr.unknownHw
  | devWarning => exact h.decDevWarning
  | dupError => exact h.decDupError
  | ooo => exact h.decOoo

theorem State.PollStep.decodeStatus {b : Byte} (h : s.PollStep i now u) : s.PollStep i now (u.decodeStatus i b now) := by
  have hm : s.PollStep i now (u.modTok i fun t => { t with oooMissing := false }) := h.modTok (.inl rfl)
  obtain e | ⟨c, e⟩ | e := u.decodeStatus_cases _ i b now rfl
  · exact e ▸ hm.success
  · exact e ▸ hm.decodeCode
  · exact e ▸ hm.unspecAbort

/-! ### POLL (42_status_decoder.md R280, R281) -/

theorem State.PollStep.pollStatus (h : s.PollStep i now u) : s.PollStep i now (u.pollStatus i now) := by
  rw [State.pollStatus]
  split
  · exact h
  next b _ =>
    have ho : s.PollStep i now (u.observe i b now) :=
      .emit (.count (h.modTok (.inl rfl) (htimes := fun _ _ hn x => ⟨x.1, x.2.1, fun _ e => Option.some.inj e ▸ hn⟩)))
    exact .ite ho.decodeStatus ho

/-- The steps of a POLL up to its end. -/
theorem State.pollActive_eq (s : State) (i now : Nat) : ∃ u, s.PollStep i now u ∧ s.pollActive i now = u.finish i := by
  have hs : s.PollStep i now (s.pollStatus i now) := (State.PollStep.refl s).pollStatus
  have hl : s.PollStep i now ((s.pollStatus i now).whilePending i fun s => s.lostCheck i now) := .ite hs.lostCheck hs
  exact ⟨_, .ite hl.timeoutCheck hl, rfl⟩

end

end Sys2Proof.Machine
end

section
/-! What an instruction can do to the state, once for all (41_token_pool.md, 42_status_decoder.md, 70_reset_and_hazards.md): it
answers an error or a word, resets, refreshes the status cache, polls, edits one slot, or launches the command of one slot. -/

namespace Sys2Proof.Machine

open Sys2Proof

/-- A generic count stays or falls, or rises by one by REISSUE of its slot within the budget (41_token_pool.md R258). -/
def GenericStep (i : Instr) (maxGeneric j n n' : Nat) : Prop :=
  n' ≤ n ∨ ((∃ req now, i = .reissue j req now) ∧ n' = n + 1 ∧ n < maxGeneric)

/-- From `s` to `t` the instruction `i` edited slot `j` and nothing launched (41_token_pool.md). -/
structure State.Edits (s : State) (i : Instr) (j : Nat) (t : State) : Prop where
  params : t.params = s.params
  numSlots : t.numSlots = s.numSlots
  seqNext : t.seqNext = s.seqNext
  run : t.run = s.run
  active : t.active = s.active
  mem : t.mem = s.mem
  submitted : t.submitted = s.submitted
  unspecSeen : t.unspecSeen = s.unspecSeen
  refreshGeneral : t.refreshGeneral = s.refreshGeneral
  refreshReserved : t.refreshReserved = s.refreshReserved
  err : t.resp.err = none
  lastNow : s.lastNow ≤ t.lastNow
  other : ∀ k, k ≠ j → t.slotAt k = s.slotAt k
  odd : (t.slotAt j).odd = (s.slotAt j).odd
  cache : (t.slotAt j).cache = (s.slotAt j).cache
  inv : SlotInv (s.slotAt j) → SlotInv (t.slotAt j)
  active_iff : (t.tokAt j).st = .active ↔ (s.tokAt j).st = .active
  times : ∀ n, (s.tokAt j).timesBy n → (t.tokAt j).timesBy n
  generic : (∀ kind carry, i ≠ .alloc kind carry) →
    GenericStep i s.params.cfg.maxGeneric j (s.tokAt j).ctrGeneric (t.tokAt j).ctrGeneric

/-- From `s` to `t` the instruction `i` launched the command of slot `j` at `now` (41_token_pool.md R251). -/
structure State.Launches (s : State) (i : Instr) (j now : Nat) (t : State) : Prop where
  instr : (∃ d x, i = .issue j d x now) ∨ ∃ req, i = .reissue j req now
  accepts : s.Accepts j now
  notDead : s.run ≠ .dead
  idle : (s.tokAt j).st ≠ .active
  params : t.params = s.params
  numSlots : t.numSlots = s.numSlots
  seqNext : t.seqNext = s.seqNext ∨ t.seqNext = s.seqNext + 1
  run : t.run = s.run
  active : t.active = s.active ++ [j]
  unspecSeen : t.unspecSeen = s.unspecSeen
  refreshGeneral : t.refreshGeneral = s.refreshGeneral
  refreshReserved : t.refreshReserved = s.refreshReserved
  err : t.resp.err = none
  lastNow : t.lastNow = now
  written : ∃ W, t.submitted = s.submitted ++ [(j, W)] ∧ t.mem = s.memoryAfter [(j, W)]
  other : ∀ k, k ≠ j → t.slotAt k = s.slotAt k
  odd : (t.slotAt j).odd = (s.slotAt j).odd ^^^ 1
  tokOdd : (t.tokAt j).odd = (t.slotAt j).odd
  cache : (t.slotAt j).cache = (s.slotAt j).cache
  st : (t.tokAt j).st = .active
  result : (t.tokAt j).result = .notComplete
  times : (s.tokAt j).timesBy now → (t.tokAt j).timesBy now
  generic : GenericStep i s.params.cfg.maxGeneric j (s.tokAt j).ctrGeneric (t.tokAt j).ctrGeneric

/-- The state STATUS_REFRESH leaves (42_status_decoder.md R270). -/
def State.refreshed (s : State) (y : TokenType) (now : Nat) : State := ((s.begin.atTime now).refreshSlots y).setRefreshTime y now

/-- What an instruction can do to the state. -/
inductive State.Ran (s : State) : Instr → State → Prop where
  | error (i : Instr) (e : OpError) : Ran s i (s.answered (Response.error e))
  | word (i : Instr) (W : CmdWord) : Ran s i (s.answered (Response.ofWord W))
  | reset : Ran s .opReset s.doReset
  | refresh (y : TokenType) (now : Nat) (h : s.lastNow ≤ now) :
    Ran s (.statusRefresh y now) (s.refreshed y now)
  | polled (j now : Nat) (u : State) (ha : s.Accepts j now) (hst : (s.tokAt j).st = .active)
      (hu : (s.begin.atTime now).PollStep j now u) : Ran s (.poll j now) (u.finish j)
  | edited (i : Instr) (j : Nat) (t : State) (h : s.Edits i j t) : Ran s i t
  | launched (i : Instr) (j now : Nat) (t : State) (h : s.Launches i j now t) : Ran s i t

section
variable {s t : State} {i : Instr} {j now : Nat}

/-- A token that keeps its times keeps them before any time. -/
theorem Token.timesBy_congr {t t' : Token} (h1 : t'.issueTime = t.issueTime) (h2 : t'.armedTime = t.armedTime)
    (h3 : t'.touchedTime = t.touchedTime) (n : Nat) (h : t.timesBy n) : t'.timesBy n := ⟨h1 ▸ h.1, h2 ▸ h.2.1, h3 ▸ h.2.2⟩

theorem State.slotAt_of_slots {u : State} (h : t.slots = u.slots) (k : Nat) : t.slotAt k = u.slotAt k := by
  rw [State.slotAt, h, State.slotAt]

/-- An edit of one slot of the table that leaves everything else: what it does to the slot is to be said. -/
theorem State.Edits.of_modify {f : Slot → Slot} (hj : j < s.numSlots) (hs : t.slots = s.slots.modify j f)
    (hodd : (f (s.slotAt j)).odd = (s.slotAt j).odd) (hcache : (f (s.slotAt j)).cache = (s.slotAt j).cache)
    (hinv : SlotInv (s.slotAt j) → SlotInv (f (s.slotAt j)))
    (hact : (f (s.slotAt j)).tok.st = .active ↔ (s.slotAt j).tok.st = .active)
    (htimes : ∀ n, (s.tokAt j).timesBy n → (f (s.slotAt j)).tok.timesBy n)
    (hgen : (∀ kind carry, i ≠ .alloc kind carry) →
      GenericStep i s.params.cfg.maxGeneric j (s.tokAt j).ctrGeneric (f (s.slotAt j)).tok.ctrGeneric)
    (hl : s.lastNow ≤ t.lastNow) (he : t.resp.err = none := by rfl) (hp : t.params = s.params := by rfl)
    (hq : t.seqNext = s.seqNext := by rfl) (hr : t.run = s.run := by rfl) (ha : t.active = s.active := by rfl)
    (hm : t.mem = s.mem := by rfl) (hw : t.submitted = s.submitted := by rfl) (hu : t.unspecSeen = s.unspecSeen := by rfl)
    (hg : t.refreshGeneral = s.refreshGeneral := by rfl) (hv : t.refreshReserved = s.refreshReserved := by rfl) : s.Edits i j t := by
  have hslot (k : Nat) : t.slotAt k = (s.modSlot j f).slotAt k := State.slotAt_of_slots hs k
  have hself : t.slotAt j = f (s.slotAt j) := by rw [hslot, State.slotAt_modSlot_self s j f hj]
  have htok : t.tokAt j = (f (s.slotAt j)).tok := congrArg Slot.tok hself
  exact ⟨hp, by rw [State.numSlots, hs, List.length_modify, State.numSlots], hq, hr, ha, hm, hw, hu, hg, hv, he, hl,
    fun k hk => by rw [hslot, State.slotAt_modSlot_ne s j k f (Ne.symm hk)], by rw [hself, hodd], by rw [hself, hcache],
    by rw [hself]; exact hinv, by rw [htok]; exact hact, by rw [htok]; exact htimes, by rw [htok]; exact hgen⟩

/-- Nothing but the time and the answer changes. -/
theorem State.Edits.none (hs : t.slots = s.slots) (hl : s.lastNow ≤ t.lastNow) (he : t.resp.err = none := by rfl)
    (hp : t.params = s.params := by rfl) (hq : t.seqNext = s.seqNext := by rfl) (hr : t.run = s.run := by rfl)
    (ha : t.active = s.active := by rfl) (hm : t.mem = s.mem := by rfl) (hw : t.submitted = s.submitted := by rfl)
    (hu : t.unspecSeen = s.unspecSeen := by rfl) (hg : t.refreshGeneral = s.refreshGeneral := by rfl)
    (hv : t.refreshReserved = s.refreshReserved := by rfl) : s.Edits i j t := by
  have hslot (k : Nat) : t.slotAt k = s.slotAt k := State.slotAt_of_slots hs k
  have htok : t.tokAt j = s.tokAt j := congrArg Slot.tok (hslot j)
  exact ⟨hp, by rw [State.numSlots, hs, State.numSlots], hq, hr, ha, hm, hw, hu, hg, hv, he, hl, fun k _ => hslot k,
    by rw [hslot], by rw [hslot], by rw [hslot]; exact id, by rw [htok], by rw [htok]; exact fun _ h => h,
    by rw [htok]; exact fun _ => .inl (Nat.le_refl _)⟩

/-! ### The operations of the pool (41_token_pool.md) -/

theorem State.mem_freeGeneral {k : Nat} (h : k ∈ s.freeGeneral) : k < s.numSlots ∧ (s.tokAt k).st = .free := by
  rw [State.freeGeneral, List.mem_filter, List.mem_range, decide_eq_true_eq] at h
  exact ⟨by omega, h.2⟩

theorem State.chooseFrom_mem {F : List Nat} (h : F ≠ []) : s.chooseFrom F ∈ F := by
  have hlen : (s.draws.headD (Config.freeDraw s.drawCount)) % F.length < F.length := Nat.mod_lt _ (List.length_pos_iff.2 h)
  rw [State.chooseFrom, List.getD_eq_getElem _ _ hlen]
  exact List.getElem_mem hlen

/-- A free token becomes ALLOCATED (R240, R242). -/
theorem SlotInv.allocate {sl : Slot} {kind : Byte} {n : Nat} (hst : sl.tok.st = .free) (h : SlotInv sl) :
    SlotInv { sl with tok := { sl.tok with st := .allocated, allocKind := kind, ctrGeneric := n } } := by
  obtain ⟨hfit, -, -⟩ := h
  refine ⟨?_, nofun, nofun⟩
  rw [hst] at hfit
  exact hfit

theorem State.opAlloc_ran {kind : Byte} {carry : Nat} (e : s.begin.opAlloc kind carry = .ok t) : s.Ran (.alloc kind carry) t := by
  unfold State.opAlloc at e
  split_ifs at e with hF
  cases e
  obtain ⟨hj, hst⟩ := State.mem_freeGeneral (State.chooseFrom_mem (s := s.begin) hF)
  exact .edited _ _ _ (.of_modify hj rfl rfl rfl (SlotInv.allocate hst) ⟨nofun, fun x => absurd (hst.symm.trans x) nofun⟩
    (fun _ h => h) (fun x => absurd rfl (x kind carry)) (Nat.le_refl _))

theorem State.opAllocId_ran {kind : Byte} (e : s.begin.opAllocId j kind = .ok t) : s.Ran (.allocId j kind) t := by
  unfold State.opAllocId at e
  split_ifs at e with hj hst
  cases e
  have hst : (s.tokAt j).st = .free := not_not.1 hst
  exact .edited _ _ _ (.of_modify (Nat.lt_of_not_le hj) rfl rfl rfl (SlotInv.allocate hst)
    ⟨nofun, fun x => absurd (hst.symm.trans x) nofun⟩ (fun _ h => h) (fun _ => .inl (Nat.zero_le _)) (Nat.le_refl _))

theorem State.opBuild_ran {req : BuildReq} (e : s.begin.opBuild j req = .ok t) : s.Ran (.build j req) t := by
  unfold State.opBuild at e
  split_ifs at e with hj hst hb
  split at e <;> cases e
  have hst : (s.slotAt j).tok.st = .allocated ∨ (s.slotAt j).tok.st = .built := by
    by_contra h
    exact hst (not_or.1 h)
  refine .edited _ _ _ (.of_modify (Nat.lt_of_not_le hj) rfl rfl rfl (fun h => ⟨?_, nofun, nofun⟩) ⟨nofun, fun x => ?_⟩
    (fun n h => h) (fun _ => .inl (Nat.le_refl _)) (Nat.le_refl _))
  · obtain ⟨hfit, -⟩ := h
    rcases hst with hst | hst <;> rw [hst] at hfit <;> exact hfit
  · rcases hst with hst | hst <;> cases hst.symm.trans x

theorem State.opDetach_ran (e : s.begin.opDetach j = .ok t) : s.Ran (.detach j) t := by
  unfold State.opDetach at e
  split_ifs at e with hj hst
  cases e
  exact .edited _ _ _ (.of_modify (Nat.lt_of_not_le hj) rfl rfl rfl (fun ⟨hfit, hodd, _⟩ => ⟨hfit, hodd, fun x => absurd x hst⟩)
    .rfl (fun _ h => h) (fun _ => .inl (Nat.le_refl _)) (Nat.le_refl _))

theorem State.opRelease_ran (e : s.begin.opRelease j = .ok t) : s.Ran (.release j) t := by
  unfold State.opRelease at e
  split_ifs at e with hj hst hl
  cases e
  exact .edited _ _ _ (.of_modify (Nat.lt_of_not_le hj) rfl rfl rfl (fun _ => ⟨rfl, nofun, fun _ => ⟨rfl, rfl⟩⟩)
    ⟨nofun, fun x => absurd (.inr x) hst⟩ (fun _ _ => ⟨Nat.zero_le _, Nat.zero_le _, nofun⟩) (fun _ => .inl (Nat.zero_le _))
    (Nat.le_refl _))

/-! ### Launches (41_token_pool.md R251, R256) -/

/-- The launch of an idle slot with the token `tok`, whatever number and word it takes. -/
theorem State.inFlight_launches (s : State) {tok : Token} {has fresh : Bool} {q : BitVec 32} {W : CmdWord} (ha : s.Accepts j now)
    (hrun : s.run ≠ .dead) (hidle : (s.tokAt j).st ≠ .active)
    (hi : (∃ d x, i = .issue j d x now) ∨ ∃ req, i = .reissue j req now) (htouched : tok.touchedTime = (s.tokAt j).touchedTime)
    (hgen : GenericStep i s.params.cfg.maxGeneric j (s.tokAt j).ctrGeneric tok.ctrGeneric) :
    s.Launches i j now (s.begin.inFlight j now tok has q fresh W) := by
  have hts : (s.begin.inFlight j now tok has q fresh W).slotAt j = { s.slotAt j with
      odd := (s.slotAt j).odd ^^^ 1,
      tok := tok.inFlight s.params.cfg ((s.slotAt j).odd ^^^ 1) has q W (s.slotAt j).cache now } :=
    State.slotAt_modSlot_self s j _ ha.1
  have htok := congrArg Slot.tok hts
  exact
    { instr := hi, accepts := ha, notDead := hrun, idle := hidle, params := rfl
      numSlots := List.length_modify _ _ _
      seqNext := by cases fresh <;> simp [State.inFlight]
      run := rfl, active := rfl, unspecSeen := rfl, refreshGeneral := rfl, refreshReserved := rfl, err := rfl, lastNow := rfl
      written := ⟨W, rfl, rfl⟩
      other := fun k hk => State.slotAt_modSlot_ne s j k _ hk.symm
      odd := congrArg Slot.odd hts
      tokOdd := (congrArg Token.odd htok).trans (congrArg Slot.odd hts).symm
      cache := (congrArg Slot.cache hts).trans rfl, st := congrArg Token.st htok, result := congrArg Token.result htok
      times := fun h => by
        rw [State.tokAt, htok]
        exact ⟨Nat.le_refl _, Nat.le_refl _, fun u hu => h.2.2 u (htouched ▸ hu)⟩
      generic := (congrArg Token.ctrGeneric htok).symm ▸ hgen }

/-- The launch of an idle slot, allowed or denied. -/
theorem State.launch_ran {f : Token → Token} (ha : s.Accepts j now) (hrun : s.run ≠ .dead) (hidle : (s.tokAt j).st ≠ .active)
    (hi : (∃ d x, i = .issue j d x now) ∨ ∃ req, i = .reissue j req now)
    (htouched : (f (s.tokAt j)).touchedTime = (s.tokAt j).touchedTime) (hissue : (f (s.tokAt j)).issueTime = (s.tokAt j).issueTime)
    (harmed : (f (s.tokAt j)).armedTime = (s.tokAt j).armedTime)
    (hgen : GenericStep i s.params.cfg.maxGeneric j (s.tokAt j).ctrGeneric (f (s.tokAt j)).ctrGeneric) :
    s.Ran i (((s.begin.atTime now).modTok j f).launch j now) := by
  obtain ⟨hj, hnow⟩ := ha
  generalize hu : (s.begin.atTime now).modTok j f = u
  have hslots : u.slots = s.slots.modify j fun sl => { sl with tok := f sl.tok } := by rw [← hu]; rfl
  have hself : u.slotAt j = { s.slotAt j with tok := f (s.tokAt j) } := by
    rw [← hu, State.slotAt_modTok, if_pos ⟨rfl, by simpa using hj⟩]
    rfl
  cases hf : u.filterAllows (u.launchWord j)
  · rw [u.launch_denied j now hf]
    refine .edited _ j _ (.of_modify (f := fun sl => { sl with tok := (f sl.tok).denied }) hj ?_ rfl rfl
      (fun _ => ⟨rfl, nofun, nofun⟩) ⟨nofun, fun x => absurd x hidle⟩ (fun n => Token.timesBy_congr hissue harmed htouched n)
      (fun _ => hgen) ?_ ?_ ?_ ?_ ?_ ?_ ?_ ?_ ?_ ?_ ?_)
    · simp only [hslots, List.modify_modify_eq]
      rfl
    all_goals subst hu
    · exact hnow
    all_goals rfl
  · have hpass : u.filterPasses (u.launchWord j) = true := by rw [← State.filterAllows_eq, hf]
    rw [State.launch_eq_inFlight (by rw [← hu]; simpa using hj) (by rw [← hu]; rfl) (by rw [← hu]; rfl) hpass, State.tokAt, hself]
    generalize u.assignSeq j = g, u.launchWord j = W
    rw [← hu, State.inFlight_modTok_atTime]
    exact .launched _ j now _ (s.inFlight_launches ⟨hj, hnow⟩ hrun hidle hi htouched hgen)

theorem State.opIssue_ran {d : Option (BitVec 5)} {x : BitVec 128} (e : s.begin.opIssue j d x now = .ok t) :
    s.Ran (.issue j d x now) t := by
  unfold State.opIssue at e
  split_ifs at e with hj hnow hst hrun
  cases e
  have hst : (s.tokAt j).st = .built := not_not.1 hst
  exact State.launch_ran (f := fun t => { t with dealloc := d, xsum := x }) ⟨Nat.lt_of_not_le hj, Nat.le_of_not_lt hnow⟩ hrun
    (by rw [hst]; nofun) (.inl ⟨d, x, rfl⟩) rfl rfl rfl (.inl (Nat.le_refl _))

/-- A replacement request is bound to the token and to nothing else (R257). -/
theorem State.rebind_ok {req : Option BuildReq} (e : s.rebind j req = .ok t) :
    ∃ g : Token → Token, t = s.modTok j g ∧ ∀ k, (g k).touchedTime = k.touchedTime ∧ (g k).issueTime = k.issueTime
      ∧ (g k).armedTime = k.armedTime ∧ (g k).ctrGeneric = k.ctrGeneric := by
  cases req with
  | none =>
    cases e
    exact ⟨id, congrArg (fun l => { s with slots := l }) (List.modify_id j s.slots).symm, fun _ => ⟨rfl, rfl, rfl, rfl⟩⟩
  | some r =>
    simp only [State.rebind] at e
    split_ifs at e
    split at e <;> cases e
    exact ⟨_, rfl, fun _ => ⟨rfl, rfl, rfl, rfl⟩⟩

theorem Token.done_of_reissuable {k : Token} (h : ¬ k.reissuable = false) : k.st = .done := by
  rw [Token.reissuable, Bool.not_eq_false, Bool.and_eq_true, decide_eq_true_eq] at h
  exact h.1

/-- A DONE token turned to ABORT (R258). -/
theorem SlotInv.abort {sl : Slot} {w : Reason} (hst : sl.tok.st = .done) (_ : SlotInv sl) :
    SlotInv { sl with tok := { sl.tok with result := .abort, why := some w } } :=
  ⟨by rw [hst]; rfl, fun x => absurd (hst.symm.trans x) nofun, fun x => absurd (hst.symm.trans x) nofun⟩

theorem State.opReissue_ran {req : Option BuildReq} (e : s.begin.opReissue j req now = .ok t) : s.Ran (.reissue j req now) t := by
  unfold State.opReissue at e
  split_ifs at e with hj hnow hre hrun hbud
  all_goals have hdone : (s.tokAt j).st = .done := Token.done_of_reissuable hre
  all_goals replace hj := Nat.lt_of_not_le hj
  all_goals replace hnow := Nat.le_of_not_lt hnow
  · cases e
    exact .edited _ _ _ (.of_modify hj rfl rfl rfl (SlotInv.abort hdone) .rfl (fun _ h => h) (fun _ => .inl (Nat.le_refl _)) hnow)
  · split at e
    · cases e
    rename_i u hu
    cases e
    obtain ⟨g, rfl, hg⟩ := State.rebind_ok hu
    obtain ⟨htouched, hissue, harmed, hgen⟩ := hg (s.tokAt j)
    rw [State.modTok, State.modTok, State.modSlot_modSlot]
    exact State.launch_ran (f := fun t => { g t with ctrGeneric := (g t).ctrGeneric + 1 }) ⟨hj, hnow⟩ hrun (by rw [hdone]; nofun)
      (.inr ⟨req, rfl⟩) htouched hissue harmed
      (.inr ⟨⟨req, now, rfl⟩, congrArg (· + 1) hgen, Nat.lt_of_not_le hbud⟩)

/-! ### STATUS_REFRESH and POLL -/

theorem State.opRefresh_ran {y : TokenType} (e : s.begin.opRefresh y now = .ok t) : s.Ran (.statusRefresh y now) t := by
  unfold State.opRefresh at e
  split_ifs at e with hnow
  cases e
  exact .refresh y now (Nat.le_of_not_lt hnow)

theorem State.opPoll_ran (e : s.begin.opPoll j now = .ok t) : s.Ran (.poll j now) t := by
  unfold State.opPoll at e
  split_ifs at e with hj hnow hdone hst
  · cases e
    exact .edited _ j _ (.none rfl (Nat.le_of_not_lt hnow))
  · cases e
    obtain ⟨u, hu, heq⟩ := (s.begin.atTime now).pollActive_eq j now
    rw [heq]
    exact .polled j now u ⟨Nat.lt_of_not_le hj, Nat.le_of_not_lt hnow⟩ (not_not.1 hst) hu

/-! ### Every instruction -/

/-- An operation ran where its effect did. -/
theorem State.answer_ran {r : Except OpError State} (e : s.answer r = .next t) (h : ∀ u, r = .ok u → s.Ran i u) : s.Ran i t := by
  obtain e | ⟨x, -, rfl⟩ := s.answer_cases t r e
  · exact h t e
  · exact .error i x

/-- The answer of the encoder is an error or a word (40_cmdgen.md R171). -/
theorem State.encoder_ran {r : Except OpError CmdWord} {f : CmdWord → CmdWord}
    (e : (.next (s.answered (match r with | .error e => Response.error e | .ok W => Response.ofWord (f W))) :
      Host.Outcome State Fault Refusal) = .next t) : s.Ran i t := by
  cases r <;> cases e
  · exact .error i _
  · exact .word i _

theorem exec_ran (e : exec i s = .next t) : s.Ran i t := by
  by_cases hc : i.opBytes = none
  · obtain ⟨hd, st, req, hx⟩ := exec_command i s hc
    rw [hx, State.encodeCommand_eq] at e
    exact State.encoder_ran (f := fun W => finalize s.params.layout W st.odd st.slot st.seq st.dealloc st.xsum) e
  cases i
  case opReset => cases e; exact .reset
  case encBuild req => exact State.encoder_ran (f := id) ((execEncBuild_eq s req).symm.trans e)
  case encFinalize => cases e; exact .word _ _
  case alloc => exact State.answer_ran e fun _ => State.opAlloc_ran
  case allocId => exact State.answer_ran e fun _ => State.opAllocId_ran
  case build => exact State.answer_ran e fun _ => State.opBuild_ran
  case issue => exact State.answer_ran e fun _ => State.opIssue_ran
  case statusRefresh => exact State.answer_ran e fun _ => State.opRefresh_ran
  case poll => exact State.answer_ran e fun _ => State.opPoll_ran
  case reissue => exact State.answer_ran e fun _ => State.opReissue_ran
  case detach => exact State.answer_ran e fun _ => State.opDetach_ran
  case release => exact State.answer_ran e fun _ => State.opRelease_ran
  all_goals exact absurd rfl hc

/-- A step waits, runs an instruction with the request taken off, answers an error to it, or takes a device write, which writes
memory alone. -/
theorem step_cases (e : step s = .next t) :
    t = s ∨ (∃ rest i, exec i { s with inputs := rest } = .next t) ∨ (∃ rest r, t = ({ s with inputs := rest } : State).answered r)
      ∨ ∃ rest, t = { s with inputs := rest, mem := t.mem } ∧ (s.mem.wf = true → t.mem.wf = true) := by
  rw [step, if_neg (by simp [configOk_of_step e])] at e
  split at e
  · cases e
    exact .inl rfl
  · rename_i q rest _
    rw [stepRequest] at e
    split at e
    · exact .inr (.inl ⟨rest, _, e⟩)
    · rename_i d _
      refine .inr (.inr (.inl ⟨rest, ?_⟩))
      cases d <;> cases e <;> exact ⟨_, rfl⟩
  · rename_i rest _
    exact .inr (.inr (.inr ⟨rest, State.deviceWrite_spec _ t _ e⟩))

end

end Sys2Proof.Machine
end

section
/-! What every instruction and every step keeps (10_state.md R39, R47, R62, 60_exceptions.md R407): by the things an instruction can do. -/

namespace Sys2Proof.Machine

open Sys2Proof

section
variable {s t u : State} {i : Instr} {j k now : Nat}

/-! ### The end of a POLL (42_status_decoder.md R281) -/

/-- The end of a POLL writes slots, the active list and the answer. -/
theorem State.finish_frame (u : State) (j : Nat) :
    u.finish j = { u with slots := (u.finish j).slots, active := (u.finish j).active, resp := (u.finish j).resp } := by
  obtain ⟨-, h⟩ | ⟨-, h⟩ := u.finish_cases j
  · rw [h]
    rfl
  · rw [h]

@[simp] theorem State.finish_params (u : State) (j : Nat) : (u.finish j).params = u.params := by rw [State.finish_frame]
@[simp] theorem State.finish_seqNext (u : State) (j : Nat) : (u.finish j).seqNext = u.seqNext := by rw [State.finish_frame]
@[simp] theorem State.finish_run (u : State) (j : Nat) : (u.finish j).run = u.run := by rw [State.finish_frame]
@[simp] theorem State.finish_lastNow (u : State) (j : Nat) : (u.finish j).lastNow = u.lastNow := by rw [State.finish_frame]
@[simp] theorem State.finish_unspecSeen (u : State) (j : Nat) : (u.finish j).unspecSeen = u.unspecSeen := by rw [State.finish_frame]
@[simp] theorem State.finish_mem (u : State) (j : Nat) : (u.finish j).mem = u.mem := by rw [State.finish_frame]
@[simp] theorem State.finish_submitted (u : State) (j : Nat) : (u.finish j).submitted = u.submitted := by rw [State.finish_frame]
@[simp] theorem State.finish_refreshGeneral (u : State) (j : Nat) : (u.finish j).refreshGeneral = u.refreshGeneral := by
  rw [State.finish_frame]
@[simp] theorem State.finish_refreshReserved (u : State) (j : Nat) : (u.finish j).refreshReserved = u.refreshReserved := by
  rw [State.finish_frame]

theorem State.finish_err (u : State) (j : Nat) : (u.finish j).resp.err = u.resp.err := by
  obtain ⟨-, h⟩ | ⟨-, h⟩ := u.finish_cases j
  · rw [h]
    rfl
  · rw [h]

theorem State.finish_numSlots (u : State) (j : Nat) : (u.finish j).numSlots = u.numSlots := by
  obtain ⟨-, h⟩ | ⟨-, h⟩ := u.finish_cases j <;> rw [h]
  · rfl
  · exact List.length_modify _ _ _

/-- The slots where the result is terminal. -/
theorem State.finish_slotAt_done (h : (u.tokAt j).result ≠ .notComplete) (k : Nat) :
    (u.finish j).slotAt k = (u.modTok j fun t => { t with st := .done }).slotAt k := by
  obtain ⟨e, -⟩ | ⟨-, e⟩ := u.finish_cases j
  · exact absurd e h
  · exact State.slotAt_of_slots (by rw [e]; rfl) k

theorem State.finish_slotAt (u : State) (j k : Nat) :
    (u.finish j).slotAt k = u.slotAt k ∨ (u.finish j).slotAt k = { u.slotAt k with tok := { u.tokAt k with st := .done } } := by
  by_cases h : (u.tokAt j).result = .notComplete
  · obtain ⟨-, e⟩ | ⟨e, -⟩ := u.finish_cases j
    · exact .inl (by rw [e]; rfl)
    · exact absurd h e
  · rw [State.finish_slotAt_done h, State.slotAt_modTok]
    split
    · exact .inr rfl
    · exact .inl rfl

/-- What a whole POLL leaves of a slot. -/
theorem State.polled_slot (hu : (s.begin.atTime now).PollStep j now u) (k : Nat) :
    ((u.finish j).slotAt k).odd = (s.slotAt k).odd ∧ ((u.finish j).slotAt k).cache = (s.slotAt k).cache
      ∧ ((u.finish j).tokAt k).ctrGeneric = (s.tokAt k).ctrGeneric
      ∧ ((s.tokAt k).timesBy now → ((u.finish j).tokAt k).timesBy now) := by
  obtain ⟨hodd, hcache, -, -, hgen, htimes, -, -⟩ := hu.slot k
  rw [State.tokAt]
  obtain e | e := u.finish_slotAt j k <;> rw [e] <;> exact ⟨hodd, hcache, hgen, htimes now (Nat.le_refl _)⟩

/-! ### RESET and STATUS_REFRESH -/

theorem State.doReset_slotAt (s : State) (j : Nat) : s.doReset.slotAt j = Slot.reset := by
  have h : s.doReset.slots = List.replicate s.numSlots Slot.reset := rfl
  rw [State.slotAt, h, List.getD_eq_getElem?_getD, List.getElem?_replicate]
  split <;> rfl

theorem State.doReset_numSlots (s : State) : s.doReset.numSlots = s.numSlots := List.length_replicate

theorem State.refreshed_slotAt (s : State) (y : TokenType) (now k : Nat) :
    (s.refreshed y now).slotAt k = { s.slotAt k with cache := ((s.refreshed y now).slotAt k).cache } := by
  have e : (s.refreshed y now).slotAt k = ((s.begin.atTime now).refreshSlots y).slotAt k :=
    State.slotAt_of_slots (State.setRefreshTime_slots _ y now) k
  by_cases hk : k < s.numSlots
  · rw [e, State.slotAt_refreshSlots (s := s.begin.atTime now) hk]
    rfl
  · have hout : ((s.begin.atTime now).refreshSlots y).numSlots ≤ k := by
      rw [State.refreshSlots_numSlots]
      exact Nat.le_of_not_lt hk
    rw [e, State.slotAt_out _ k hout, State.slotAt_out s k (Nat.le_of_not_lt hk)]

/-- STATUS_REFRESH writes the cache, the time and one refresh time. -/
theorem State.refreshed_frame (s : State) (y : TokenType) (now : Nat) :
    s.refreshed y now = { s.begin.atTime now with
      slots := (s.refreshed y now).slots, refreshGeneral := (s.refreshed y now).refreshGeneral
      refreshReserved := (s.refreshed y now).refreshReserved } := by
  cases y <;> rfl

theorem State.refreshed_numSlots (s : State) (y : TokenType) (now : Nat) : (s.refreshed y now).numSlots = s.numSlots := by
  have e : (s.refreshed y now).numSlots = ((s.begin.atTime now).refreshSlots y).numSlots :=
    congrArg List.length (State.setRefreshTime_slots _ y now)
  rw [e, State.refreshSlots_numSlots]
  rfl

/-! ### The block invariant (10_state.md R39) -/

theorem State.BlockInv.reset (s : State) : s.doReset.BlockInv :=
  ⟨List.nodup_nil, fun _ h => absurd h List.not_mem_nil, fun k _ => by
    rw [State.tokAt, State.doReset_slotAt]
    exact ⟨⟨rfl, nofun, fun _ => ⟨rfl, rfl⟩⟩, nofun⟩⟩

/-- A change of the caches alone keeps the invariant. -/
theorem State.BlockInv.cached (h : s.BlockInv) (ha : t.active = s.active) (hn : t.numSlots = s.numSlots)
    (hs : ∀ k, t.slotAt k = { s.slotAt k with cache := (t.slotAt k).cache }) : t.BlockInv := by
  obtain ⟨hnodup, hactive, hslots⟩ := h
  have htok (k : Nat) : t.tokAt k = s.tokAt k := (congrArg Slot.tok (hs k)).trans rfl
  rw [State.BlockInv, ha, hn]
  simp only [htok]
  refine ⟨hnodup, hactive, fun k hk => ⟨?_, (hslots k hk).2⟩⟩
  rw [hs k]
  exact (hslots k hk).1

/-- The steps of a POLL of an active token keep the invariant of a slot but for the result of the polled token. -/
theorem State.PollStep.slotInv (hu : s.PollStep j now u) (h : s.BlockInv) (hj : (s.tokAt j).st = .active) (hk : k < s.numSlots)
    (hr : k = j → (u.tokAt j).result = .notComplete) : SlotInv (u.slotAt k) := by
  obtain ⟨-, hactive, hslots⟩ := h
  obtain ⟨⟨hfit, hodd, hfree⟩, -⟩ := hslots k hk
  obtain ⟨hso, -, hsst, hsto, -, -, -, hsother⟩ := hu.slot k
  by_cases hkj : k = j
  · subst hkj
    have hst : (u.slotAt k).tok.st = .active := hsst.trans hj
    exact ⟨by rw [hst, resultFits]; exact decide_eq_true (hr rfl), fun _ => by rw [hsto, hso]; exact hodd hj,
      fun x => absurd (hst.symm.trans x) nofun⟩
  · refine ⟨by rw [hsst, hsother hkj]; exact hfit, fun x => by rw [hsto, hso]; exact hodd (hsst ▸ x), fun x => ?_⟩
    have hfr : (s.tokAt k).st = .free := hsst ▸ x
    rw [hu.idle k hkj fun hk => absurd (hfr.symm.trans (hactive k hk).2) nofun]
    exact hfree hfr

theorem State.BlockInv.pollEnd (h : s.BlockInv) (hj : (s.tokAt j).st = .active) (hjn : j < s.numSlots) (hu : s.PollStep j now u) :
    (u.finish j).BlockInv := by
  have hst (k : Nat) : (u.tokAt k).st = (s.tokAt k).st := (hu.slot k).st
  obtain ⟨hnodup, hactive, hslots⟩ := id h
  by_cases hr : (u.tokAt j).result = .notComplete
  · obtain ⟨-, e⟩ | ⟨hn, -⟩ := u.finish_cases j
    · rw [e, State.BlockInv]
      simp only [State.respond_active, State.respond_numSlots, State.respond_tokAt, State.respond_slotAt, hu.active, hu.numSlots, hst]
      exact ⟨hnodup, hactive, fun k hk => ⟨hu.slotInv h hj hk fun _ => hr, (hslots k hk).2⟩⟩
    · exact absurd hr hn
  have hself : (u.finish j).slotAt j = { u.slotAt j with tok := { u.tokAt j with st := .done } } := by
    rw [State.finish_slotAt_done hr, State.slotAt_modTok, if_pos ⟨rfl, hu.numSlots ▸ hjn⟩]
  have hother (k : Nat) (hk : k ≠ j) : (u.finish j).slotAt k = u.slotAt k := by
    rw [State.finish_slotAt_done hr, State.slotAt_modTok, if_neg fun x => hk x.1.symm]
  have hact : (u.finish j).active = s.active.filter fun k => k != j := by
    obtain ⟨e, -⟩ | ⟨-, e⟩ := u.finish_cases j
    · exact absurd e hr
    · rw [e, ← hu.active]
  have hmem (k : Nat) : k ∈ (u.finish j).active ↔ k ∈ s.active ∧ k ≠ j := by rw [hact]; simp
  refine ⟨hact ▸ hnodup.filter _, fun k hk => ?_, fun k hk => ?_⟩
  · obtain ⟨hk, hkj⟩ := (hmem k).1 hk
    rw [State.finish_numSlots, hu.numSlots, State.tokAt, hother k hkj]
    exact ⟨(hactive k hk).1, (hst k).trans (hactive k hk).2⟩
  · rw [State.finish_numSlots, hu.numSlots] at hk
    by_cases hkj : k = j
    · subst hkj
      have hsome : (u.slotAt k).tok.result ≠ .none := (hu.slot k).result <| by
        obtain ⟨⟨hfit, -⟩, -⟩ := hslots k hk
        rw [show (s.slotAt k).tok.st = .active from hj, resultFits, decide_eq_true_eq] at hfit
        rw [hfit]
        nofun
      rw [State.tokAt, hself]
      exact ⟨⟨by simpa [resultFits] using ⟨hsome, hr⟩, nofun, nofun⟩, nofun⟩
    · rw [State.tokAt, hother k hkj]
      exact ⟨hu.slotInv h hj hk fun x => absurd x hkj, fun x => (hmem k).2 ⟨(hslots k hk).2 ((hst k).symm.trans x), hkj⟩⟩

theorem State.BlockInv.edited (h : s.BlockInv) (he : s.Edits i j t) : t.BlockInv := by
  obtain ⟨hnodup, hactive, hslots⟩ := h
  have hst (k : Nat) : (t.tokAt k).st = .active ↔ (s.tokAt k).st = .active := by
    by_cases hk : k = j
    · exact hk ▸ he.active_iff
    · rw [State.tokAt, he.other k hk, State.tokAt]
  rw [State.BlockInv, he.active, he.numSlots]
  refine ⟨hnodup, fun k hk => ⟨(hactive k hk).1, (hst k).2 (hactive k hk).2⟩,
    fun k hk => ⟨?_, fun x => (hslots k hk).2 ((hst k).1 x)⟩⟩
  by_cases hkj : k = j
  · subst hkj
    exact he.inv (hslots k hk).1
  · exact he.other k hkj ▸ (hslots k hk).1

theorem State.BlockInv.launched (h : s.BlockInv) (hl : s.Launches i j now t) : t.BlockInv := by
  obtain ⟨hnodup, hactive, hslots⟩ := h
  have hout : j ∉ s.active := fun x => hl.idle (hactive j x).2
  have hother (k : Nat) (hk : k ≠ j) : t.tokAt k = s.tokAt k := congrArg Slot.tok (hl.other k hk)
  rw [State.BlockInv, hl.active, hl.numSlots]
  refine ⟨List.nodup_append.2 ⟨hnodup, List.nodup_singleton j, fun a ha b hb e => ?_⟩, fun k hk => ?_, fun k hk => ?_⟩
  · exact hout (List.mem_singleton.1 hb ▸ e ▸ ha)
  · rcases List.mem_append.1 hk with hk | hk
    · rw [hother k fun e => hout (e ▸ hk)]
      exact hactive k hk
    · rw [List.mem_singleton.1 hk]
      exact ⟨hl.accepts.1, hl.st⟩
  · by_cases hkj : k = j
    · subst hkj
      have hst : (t.slotAt k).tok.st = .active := hl.st
      exact ⟨⟨by rw [hst, resultFits]; exact decide_eq_true hl.result, fun _ => hl.tokOdd, fun x => absurd (hst.symm.trans x) nofun⟩,
        fun _ => List.mem_append_right _ (List.mem_singleton.2 rfl)⟩
    · rw [hl.other k hkj, hother k hkj]
      exact ⟨(hslots k hk).1, fun x => List.mem_append_left _ ((hslots k hk).2 x)⟩

/-- Every instruction keeps the invariant. -/
theorem State.Ran.blockInv (r : s.Ran i t) (h : s.BlockInv) : t.BlockInv := by
  cases r with
  | error e => exact h
  | word i W => exact h
  | reset => exact .reset s
  | refresh y now hnow =>
    exact h.cached ((congrArg State.active (s.refreshed_frame y now)).trans rfl) (s.refreshed_numSlots y now) (s.refreshed_slotAt y now)
  | polled j now u ha hst hu => exact State.BlockInv.pollEnd (s := s.begin.atTime now) h hst ha.1 hu
  | edited i j t he => exact h.edited he
  | launched i j now t hl => exact h.launched hl

end

/-- Settles O14: by the things an instruction can do; an answer and a device write touch neither slots nor the active list. -/
theorem blockInvariantKept : Obligations.BlockInvariantKept := by
  intro s t h e
  obtain rfl | ⟨rest, i, hi⟩ | ⟨rest, r, rfl⟩ | ⟨rest, ht, -⟩ := step_cases e
  · exact h
  · exact (exec_ran hi).blockInv h
  · exact h
  · rw [ht]
    exact h

end Sys2Proof.Machine
end

section
/-! The whole-machine rules of 10_state.md, 20_memory.md and 60_exceptions.md that speak of every instruction, by the things an
instruction can do (`State.Ran`). -/

namespace Sys2Proof.Machine

open Sys2Proof

section
variable {s t u : State} {i : Instr} {j k now : Nat}

/-! ### Memory after the writes of command slots (20_memory.md R81, R85) -/

theorem foldl_writeBytes_wf (addr : Nat → Nat) (l : List (Nat × CmdWord)) (m : Memory) (h : m.wf = true) :
    (l.foldl (fun m p => m.writeBytes (addr p.1) p.2.bytes) m).wf = true := by
  induction l generalizing m with
  | nil => exact h
  | cons p l ih =>
    rw [List.foldl_cons]
    exact ih _ (Memory.writeBytes_wf m (addr p.1) p.2.bytes h)

/-- An address in none of the ranges written reads as before. -/
theorem read_foldl_writeBytes (addr : Nat → Nat) {l : List (Nat × CmdWord)} {a : Nat} (m : Memory)
    (h : ∀ p ∈ l, ¬ (addr p.1 ≤ a ∧ a < addr p.1 + 64)) :
    (l.foldl (fun m p => m.writeBytes (addr p.1) p.2.bytes) m).read a = m.read a := by
  induction l generalizing m with
  | nil => rfl
  | cons p l ih =>
    rw [List.foldl_cons, ih _ fun q hq => h q (List.mem_cons_of_mem _ hq), Memory.read_writeBytes, CmdWord.bytes_length]
    exact if_neg (h p List.mem_cons_self)

/-! ### Errors (60_exceptions.md R407) -/

/-- An instruction that answers an error changed nothing else. -/
theorem State.Ran.answered_of_err {e : OpError} (r : s.Ran i t) (he : t.resp.err = some e) :
    t = s.answered (Response.error e) := by
  cases r with
  | error =>
    cases he
    rfl
  | word i W => cases he
  | reset => cases he
  | refresh y now hnow => cases y <;> cases he
  | polled j now u ha hst hu =>
    rw [State.finish_err, hu.err] at he
    cases he
  | edited i j t h =>
    rw [h.err] at he
    cases he
  | launched i j now t h =>
    rw [h.err] at he
    cases he

/-! ### Parameters and times -/

theorem State.Ran.params (r : s.Ran i t) : t.params = s.params := by
  cases r with
  | error e => rfl
  | word i W => rfl
  | reset => rfl
  | refresh y now hnow => exact (congrArg State.params (s.refreshed_frame y now)).trans rfl
  | polled j now u ha hst hu => exact (u.finish_params j).trans hu.params
  | edited i j t h => exact h.params
  | launched i j now t h => exact h.params

theorem State.Ran.numSlots (r : s.Ran i t) : t.numSlots = s.numSlots := by
  cases r with
  | error e => rfl
  | word i W => rfl
  | reset => exact s.doReset_numSlots
  | refresh y now hnow => exact s.refreshed_numSlots y now
  | polled j now u ha hst hu => exact (u.finish_numSlots j).trans hu.numSlots
  | edited i j t h => exact h.numSlots
  | launched i j now t h => exact h.numSlots

theorem State.refreshed_lastNow (s : State) (y : TokenType) (now : Nat) : (s.refreshed y now).lastNow = now :=
  (congrArg State.lastNow (s.refreshed_frame y now)).trans rfl

theorem State.Ran.lastNow_le (r : s.Ran i t) (hi : i ≠ .opReset) : s.lastNow ≤ t.lastNow := by
  cases r with
  | error e => exact Nat.le_refl _
  | word i W => exact Nat.le_refl _
  | reset => exact absurd rfl hi
  | refresh y now hnow => exact hnow.trans_eq (s.refreshed_lastNow y now).symm
  | polled j now u ha hst hu => rw [State.finish_lastNow, hu.lastNow]; exact ha.2
  | edited i j t h => exact h.lastNow
  | launched i j now t h => exact h.lastNow ▸ h.accepts.2

theorem Token.timesBy_mono {k : Token} {m n : Nat} (h : k.timesBy m) (hmn : m ≤ n) : k.timesBy n :=
  ⟨h.1.trans hmn, h.2.1.trans hmn, fun u hu => (h.2.2 u hu).trans hmn⟩

/-- Where nothing is refreshed, only the token times are in question. -/
theorem State.TimeInv.of_tokens (h : s.TimeInv) (hn : t.numSlots = s.numSlots) (hg : t.refreshGeneral = s.refreshGeneral)
    (hr : t.refreshReserved = s.refreshReserved) (hl : s.lastNow ≤ t.lastNow)
    (ht : ∀ k, k < s.numSlots → (s.tokAt k).timesBy t.lastNow → (t.tokAt k).timesBy t.lastNow) : t.TimeInv := by
  obtain ⟨htok, hgen, hres⟩ := h
  refine ⟨fun k hk => ht k (hn ▸ hk) (Token.timesBy_mono (htok k (hn ▸ hk)) hl), fun u hu => ?_, fun u hu => ?_⟩
  · exact (hgen u (hg ▸ hu)).trans hl
  · exact (hres u (hr ▸ hu)).trans hl

theorem State.TimeInv.refreshed {y : TokenType} (h : s.TimeInv) (hnow : s.lastNow ≤ now) : (s.refreshed y now).TimeInv := by
  obtain ⟨htok, hgen, hres⟩ := h
  have hset : (s.refreshed y now).refreshGeneral = (if y = .general then some now else s.refreshGeneral) ∧
      (s.refreshed y now).refreshReserved = if y = .reserved then some now else s.refreshReserved := by cases y <;> exact ⟨rfl, rfl⟩
  rw [State.TimeInv, State.refreshed_numSlots, State.refreshed_lastNow, hset.1, hset.2]
  refine ⟨fun k hk => ?_, fun u hu => ?_, fun u hu => ?_⟩
  · rw [State.tokAt, s.refreshed_slotAt]
    exact Token.timesBy_mono (htok k hk) hnow
  · split at hu
    · exact (Option.some.inj hu).ge
    · exact (hgen u hu).trans hnow
  · split at hu
    · exact (Option.some.inj hu).ge
    · exact (hres u hu).trans hnow

theorem State.Ran.timeInv (r : s.Ran i t) (h : s.TimeInv) : t.TimeInv := by
  cases r with
  | error e => exact h
  | word i W => exact h
  | reset =>
    exact ⟨fun k _ => by rw [State.doReset_tokAt]; exact ⟨Nat.zero_le _, Nat.zero_le _, nofun⟩, nofun, nofun⟩
  | refresh y now hnow => exact h.refreshed hnow
  | polled j now u ha hst hu =>
    have hl : (u.finish j).lastNow = now := (u.finish_lastNow j).trans hu.lastNow
    refine h.of_tokens ((u.finish_numSlots j).trans hu.numSlots) ((u.finish_refreshGeneral j).trans hu.refreshGeneral)
      ((u.finish_refreshReserved j).trans hu.refreshReserved) (hl ▸ ha.2) fun k _ hk => ?_
    rw [hl] at hk ⊢
    obtain ⟨-, -, -, htimes⟩ := State.polled_slot hu k
    exact htimes hk
  | edited i j t he =>
    refine h.of_tokens he.numSlots he.refreshGeneral he.refreshReserved he.lastNow fun k _ hk => ?_
    by_cases hkj : k = j
    · subst hkj
      exact he.times _ hk
    · rw [State.tokAt, he.other k hkj]
      exact hk
  | launched i j now t hl =>
    refine h.of_tokens hl.numSlots hl.refreshGeneral hl.refreshReserved (hl.lastNow ▸ hl.accepts.2) fun k _ hk => ?_
    rw [hl.lastNow] at hk ⊢
    by_cases hkj : k = j
    · subst hkj
      exact hl.times hk
    · rw [State.tokAt, hl.other k hkj]
      exact hk

/-! ### What is written -/

/-- From `s` to `t` the instruction `i` wrote the commands `l`: of its own slot or of active tokens, none in DEAD, and none by an
instruction other than ISSUE, REISSUE and POLL. -/
structure State.Wrote (s : State) (i : Instr) (t : State) (l : List (Nat × CmdWord)) : Prop where
  submitted : t.submitted = s.submitted ++ l
  mem : t.mem = s.memoryAfter l
  slots : ∀ p ∈ l, p.1 < s.numSlots ∨ p.1 ∈ s.active
  dead : s.run = .dead → l = []
  others : (∀ j d x now, i ≠ .issue j d x now) → (∀ j req now, i ≠ .reissue j req now) → (∀ j now, i ≠ .poll j now) → l = []

theorem State.Wrote.none (hw : t.submitted = s.submitted) (hm : t.mem = s.mem) : s.Wrote i t [] :=
  ⟨by rw [hw, List.append_nil], hm, nofun, fun _ => rfl, fun _ _ _ => rfl⟩

theorem State.Ran.wrote (r : s.Ran i t) : ∃ l, s.Wrote i t l := by
  cases r with
  | error e => exact ⟨[], .none rfl rfl⟩
  | word i W => exact ⟨[], .none rfl rfl⟩
  | reset => exact ⟨[], .none rfl rfl⟩
  | refresh y now hnow =>
    exact ⟨[], .none ((congrArg State.submitted (s.refreshed_frame y now)).trans rfl)
      ((congrArg State.mem (s.refreshed_frame y now)).trans rfl)⟩
  | polled j now u ha hst hu =>
    obtain ⟨l, hsub, hmem, hslots, hdead⟩ := hu.written
    exact ⟨l, (u.finish_submitted j).trans hsub, (u.finish_mem j).trans hmem,
      fun p hp => (hslots p hp).imp_left fun e => lt_of_eq_of_lt e ha.1, hdead, fun _ _ h => absurd rfl (h j now)⟩
  | edited i j t h => exact ⟨[], .none h.submitted h.mem⟩
  | launched i j now t h =>
    obtain ⟨W, hsub, hmem⟩ := h.written
    refine ⟨[(j, W)], hsub, hmem, fun p hp => .inl (List.mem_singleton.1 hp ▸ h.accepts.1), fun x => absurd x h.notDead,
      fun hi hr _ => ?_⟩
    obtain ⟨d, x, e⟩ | ⟨req, e⟩ := h.instr
    · exact absurd e (hi j d x now)
    · exact absurd e (hr j req now)

end

/-- Settles O9: of the things an instruction can do, only the answer of an error answers one. -/
theorem operationErrorIsPrecise : Obligations.OperationErrorIsPrecise := by
  intro i s t e h he
  exact (exec_ran h).answered_of_err he

/-- Settles O15: by the things an instruction can do; a device write leaves the times, and every write keeps memory canonical. -/
theorem timesAndMemoryFormKept : Obligations.TimesAndMemoryFormKept := by
  intro s t e
  obtain rfl | ⟨rest, i, hi⟩ | ⟨rest, r, rfl⟩ | ⟨rest, ht, hwf⟩ := step_cases e
  · exact ⟨id, id⟩
  · refine ⟨(exec_ran hi).timeInv, fun h => ?_⟩
    obtain ⟨l, hl⟩ := (exec_ran hi).wrote
    rw [hl.mem]
    exact foldl_writeBytes_wf _ l _ h
  · exact ⟨id, id⟩
  · refine ⟨fun h => ?_, hwf⟩
    rw [ht]
    exact h

/-- Settles O17: by the things an instruction can do. -/
theorem configurationIsFixed : Obligations.ConfigurationIsFixed := by
  intro s t e
  obtain rfl | ⟨rest, i, hi⟩ | ⟨rest, r, rfl⟩ | ⟨rest, ht, -⟩ := step_cases e
  · exact ⟨rfl, rfl⟩
  · exact ⟨(exec_ran hi).params, (exec_ran hi).numSlots⟩
  · exact ⟨rfl, rfl⟩
  · rw [ht]
    exact ⟨rfl, rfl⟩

/-- Settles O19: what an instruction writes are command slots of its own slot and of active tokens. -/
theorem onlyCommandSlotsAreWritten : Obligations.OnlyCommandSlotsAreWritten := by
  intro i s t e
  obtain ⟨l, hsub, hmem, hslots, hdead, hother⟩ := (exec_ran e).wrote
  have hnil (h : l = []) : t.submitted = s.submitted ∧ ∀ a, t.mem.read a = s.mem.read a := by
    subst h
    exact ⟨by rw [hsub, List.append_nil], fun a => by rw [hmem]; rfl⟩
  refine ⟨fun h => hnil (hdead h), fun ⟨_, hactive, _⟩ => ?_⟩
  have htable : ∀ p ∈ l, p.1 < s.numSlots := fun p hp => (hslots p hp).elim id fun h => (hactive p.1 h).1
  exact ⟨fun a ha => hmem ▸ read_foldl_writeBytes _ _ fun p hp => ha p.1 (htable p hp), fun h1 h2 h3 => hnil (hother h1 h2 h3),
    l, hsub, htable⟩

/-- Settles O20: only a launch toggles a polarity or takes a sequence number. -/
theorem polarityAndSequenceOnlyAtLaunch : Obligations.PolarityAndSequenceOnlyAtLaunch := by
  intro i s t e hi
  cases exec_ran e with
  | error x => exact ⟨fun j => .inl rfl, .inl rfl⟩
  | word i W => exact ⟨fun j => .inl rfl, .inl rfl⟩
  | reset => exact absurd rfl hi
  | refresh y now hnow =>
    exact ⟨fun j => .inl ((congrArg Slot.odd (s.refreshed_slotAt y now j)).trans rfl),
      .inl ((congrArg State.seqNext (s.refreshed_frame y now)).trans rfl)⟩
  | polled j now u ha hst hu =>
    refine ⟨fun k => .inl ?_, .inl ((u.finish_seqNext j).trans hu.seqNext)⟩
    obtain ⟨hodd, -⟩ := State.polled_slot hu k
    exact hodd
  | edited i j t h =>
    refine ⟨fun k => .inl ?_, .inl h.seqNext⟩
    by_cases hk : k = j
    · exact hk ▸ h.odd
    · rw [h.other k hk]
  | launched i j now t h =>
    refine ⟨fun k => ?_, h.seqNext.imp_right fun x => ⟨x, ?_⟩⟩
    · by_cases hk : k = j
      · subst hk
        refine .inr ⟨h.odd, h.st, ?_⟩
        obtain ⟨d, x, e⟩ | ⟨req, e⟩ := h.instr
        · exact .inl ⟨d, x, now, e⟩
        · exact .inr ⟨req, now, e⟩
      · exact .inl (by rw [h.other k hk])
    · obtain ⟨d, x, e⟩ | ⟨req, e⟩ := h.instr
      · exact .inl ⟨j, d, x, now, e⟩
      · exact .inr ⟨j, req, now, e⟩

/-- Settles O21: by the things an instruction can do. -/
theorem cacheFlagAndTimeRules : Obligations.CacheFlagAndTimeRules := by
  intro i s t e hi
  have hnow := (exec_ran e).lastNow_le hi
  cases exec_ran e with
  | error x => exact ⟨fun _ j => rfl, id, fun _ => rfl, hnow⟩
  | word i W => exact ⟨fun _ j => rfl, id, fun _ => rfl, hnow⟩
  | reset => exact absurd rfl hi
  | refresh y now h =>
    have hu : (s.refreshed y now).unspecSeen = s.unspecSeen := (congrArg State.unspecSeen (s.refreshed_frame y now)).trans rfl
    exact ⟨fun hr => absurd rfl (hr y now), fun x => hu.trans x, fun _ => hu, hnow⟩
  | polled j now u ha hst hu =>
    refine ⟨fun _ k => ?_, fun x => (u.finish_unspecSeen j).trans (hu.unspecSeen x), fun hp => absurd rfl (hp j now), hnow⟩
    obtain ⟨-, hcache, -⟩ := State.polled_slot hu k
    exact hcache
  | edited i j t h =>
    refine ⟨fun _ k => ?_, fun x => h.unspecSeen.trans x, fun _ => h.unspecSeen, hnow⟩
    by_cases hk : k = j
    · exact hk ▸ h.cache
    · rw [h.other k hk]
  | launched i j now t h =>
    refine ⟨fun _ k => ?_, fun x => h.unspecSeen.trans x, fun _ => h.unspecSeen, hnow⟩
    by_cases hk : k = j
    · exact hk ▸ h.cache
    · rw [h.other k hk]

/-- The two bounds of a count that stays or falls, or rises by one within the budget. -/
theorem GenericStep.bounds {i : Instr} {m j n n' : Nat} (h : GenericStep i m j n n') :
    n' ≤ max n m ∧ (n < n' → n' = n + 1 ∧ ∃ req now, i = .reissue j req now) := by
  obtain h | ⟨hi, rfl, h⟩ := h
  · exact ⟨h.trans (Nat.le_max_left _ _), fun x => absurd x (Nat.not_lt.2 h)⟩
  · exact ⟨(Nat.succ_le_of_lt h).trans (Nat.le_max_right _ _), fun _ => ⟨rfl, hi⟩⟩

/-- Settles O40: of the things an instruction can do, only a launch by REISSUE, allowed or denied, counts. -/
theorem genericBudgetBounds : Obligations.GenericBudgetBounds := by
  intro i s t j e hi
  have hstay (h : (t.tokAt j).ctrGeneric = (s.tokAt j).ctrGeneric) :
      GenericStep i s.params.cfg.maxGeneric j (s.tokAt j).ctrGeneric (t.tokAt j).ctrGeneric := .inl h.le
  refine GenericStep.bounds ?_
  cases exec_ran e with
  | error x => exact hstay rfl
  | word i W => exact hstay rfl
  | reset => exact .inl (by rw [State.doReset_tokAt]; exact Nat.zero_le _)
  | refresh y now h => exact hstay (by rw [State.tokAt, s.refreshed_slotAt]; rfl)
  | polled k now u ha hst hu =>
    obtain ⟨-, -, hgen, -⟩ := State.polled_slot hu j
    exact hstay hgen
  | edited i k t h =>
    by_cases hk : j = k
    · exact hk ▸ h.generic hi
    · exact hstay (by rw [State.tokAt, h.other j hk]; rfl)
  | launched i k now t h =>
    by_cases hk : j = k
    · exact hk ▸ h.generic
    · exact hstay (by rw [State.tokAt, h.other j hk]; rfl)

end Sys2Proof.Machine
end

section
/-! Memory, RESET and the checks of the port: a write reads back byte by byte (20_memory.md R83, R85, R86), RESET leaves the reset
values (70_reset_and_hazards.md R440), and the errors of a slot, a time and a token state come in the order of 60_exceptions.md R406. -/

namespace Sys2Proof.Machine

open Sys2Proof

section
variable {s : State} {i now : Nat}

/-! ### Bytes of words (20_memory.md R83) -/

theorem wordBytes_getElem? (v : Word) {k : Nat} (hk : k < 8) : (wordBytes v)[k]? = some (v.extractLsb' (8 * k) 8) := by
  interval_cases k <;> rfl

theorem CmdWord.bytes_getElem? (W : CmdWord) {j k : Nat} (hj : j < 8) (hk : k < 8) :
    W.bytes[8 * j + k]? = some ((W.get j).extractLsb' (8 * k) 8) := by
  interval_cases j <;> interval_cases k <;> rfl

/-- Where memory holds the bytes of a word from the extended status of a slot on, the block reads the word. -/
theorem State.readExt_of_bytes {v : Word} (h : ∀ k, k < 8 → s.mem.read (s.extAddr i + k) = some (v.extractLsb' (8 * k) 8)) :
    s.readExt i = v := by
  have hb (k : Nat) (hk : k < 8) : s.mem.byteAt (s.extAddr i + k) = v.extractLsb' (8 * k) 8 := by rw [Memory.byteAt, h k hk]; rfl
  have h0 : s.mem.byteAt (s.extAddr i) = v.extractLsb' 0 8 := hb 0 (by decide)
  rw [State.readExt]
  simp only [hb, h0, Nat.reduceLT]
  exact wordOfBytes_wordBytes v

/-! ### Device writes (20_memory.md R90) -/

theorem step_device {w : DeviceWrite} {rest : List Input} (hc : s.configOk = true) (h : s.inputs = .device w :: rest) :
    step s = State.deviceWrite { s with inputs := rest } w := by
  rw [step, if_neg (by simp [hc]), h]

/-- Settles O7: a write of the device reads back byte by byte. -/
theorem deviceWriteIsRead : Obligations.DeviceWriteIsRead := by
  intro s rest i hc hi
  constructor
  case left =>
    intro b h
    have hread (a : Nat) : (s.mem.writeBytes (s.statusAddr i) [b]).read a = if a = s.statusAddr i then some b else s.mem.read a :=
      Memory.read_write s.mem (s.statusAddr i) a b
    have hself : (s.mem.writeBytes (s.statusAddr i) [b]).read (s.statusAddr i) = some b := by rw [hread, if_pos rfl]
    refine ⟨s.mem.writeBytes (s.statusAddr i) [b], ?_, ?_, hself, fun a ha => (hread a).trans (if_neg ha)⟩
    · rw [step_device hc h]
      exact if_pos hi
    · exact congrArg (fun x => x.getD (Config.powerOnByte (s.statusAddr i))) hself
  case right =>
    intro v h
    have hread (a : Nat) := Memory.read_writeBytes s.mem (s.extAddr i) a (wordBytes v)
    have hself (k : Nat) (hk : k < 8) : (s.mem.writeBytes (s.extAddr i) (wordBytes v)).read (s.extAddr i + k) =
        some (v.extractLsb' (8 * k) 8) := by
      rw [hread, if_pos ⟨Nat.le_add_right _ _, Nat.add_lt_add_left hk _⟩, Nat.add_sub_cancel_left, wordBytes_getElem? v hk]
    refine ⟨s.mem.writeBytes (s.extAddr i) (wordBytes v), ?_, ?_, hself, fun a ha => (hread a).trans (if_neg ha)⟩
    · rw [step_device hc h]
      exact if_pos hi
    · exact State.readExt_of_bytes (s := { s with mem := s.mem.writeBytes (s.extAddr i) (wordBytes v) }) hself

/-- Settles O60: the bytes of a command stand at its slot. -/
theorem commandWriteReadsBack : Obligations.CommandWriteReadsBack := by
  intro s i W
  refine ⟨fun j k hj hk => ?_, fun a ha => ?_⟩
  · rw [State.read_writeCmd, State.cmdAddr, if_pos (by omega), Nat.add_assoc, Nat.add_sub_cancel_left, CmdWord.bytes_getElem? W hj hk]
  · rw [State.read_writeCmd]
    exact if_neg ha

/-! ### RESET (70_reset_and_hazards.md R440, R441) -/

/-- Settles O12: slot by slot; the rest stands in RESET. -/
theorem resetLeavesResetValues : Obligations.ResetLeavesResetValues := by
  intro s
  refine ⟨s.doReset, rfl, s.doReset_numSlots, fun i _ => ?_, rfl, rfl, rfl, rfl, rfl, rfl, rfl, rfl, rfl, fun _ => rfl, rfl, rfl⟩
  rw [State.tokAt, State.doReset_slotAt]
  exact ⟨rfl, rfl, rfl, rfl⟩

theorem State.resetWith_slotAt (n : Nat) (p : Params) (k : Nat) : (State.resetWith n p).slotAt k = Slot.reset := by
  have h : (State.resetWith n p).slots = List.replicate n Slot.reset := rfl
  rw [State.slotAt, h, List.getD_eq_getElem?_getD, List.getElem?_replicate]
  split <;> rfl

theorem State.resetWith_safe (n : Nat) (p : Params) : (State.resetWith n p).Safe := by
  have htok (k : Nat) : (State.resetWith n p).tokAt k = Token.reset := congrArg Slot.tok (State.resetWith_slotAt n p k)
  refine ⟨⟨List.nodup_nil, nofun, fun k _ => ?block⟩, ⟨fun k _ => ?times, nofun, nofun⟩, ⟨fun k _ => ?clean, nofun⟩,
    State.resetWith_wf n p⟩
  case block =>
    rw [htok, State.resetWith_slotAt]
    exact ⟨⟨rfl, nofun, fun _ => ⟨rfl, rfl⟩⟩, nofun⟩
  case times =>
    rw [htok]
    exact ⟨Nat.le_refl _, Nat.le_refl _, nofun⟩
  case clean =>
    rw [htok]
    exact ⟨cleanWord_zero, cleanWord_zero⟩

/-- Settles O13: the state after reset is safe for every slot count and all parameters. -/
theorem resetIsSafe : Obligations.ResetIsSafe := ⟨State.resetWith_safe 4 Params.reference, State.resetWith_safe⟩

/-! ### The checks of the port (60_exceptions.md R404, R406) -/

/-- Settles O10: the slot is checked first and the time next. -/
theorem slotAndTimeAreChecked : Obligations.SlotAndTimeAreChecked := by
  intro s i now
  have herr (r : Except OpError State) (e : OpError) (h : r = .error e) : s.answer r = .next (s.answered (Response.error e)) := by
    rw [h, State.answer_error]
  refine ⟨fun hi => ?slot, fun hnow => ⟨fun t => herr _ _ (if_pos hnow), fun hi => ?time⟩⟩
  case slot =>
    exact ⟨fun _ => herr _ _ (if_pos hi), fun _ => herr _ _ (if_pos hi), fun _ _ => herr _ _ (if_pos hi), herr _ _ (if_pos hi),
      fun _ => herr _ _ (if_pos hi), herr _ _ (if_pos hi), herr _ _ (if_pos hi)⟩
  case time =>
    have hi : ¬ s.begin.numSlots ≤ i := Nat.not_le.2 hi
    exact ⟨fun _ _ => herr _ _ ((if_neg hi).trans (if_pos hnow)), herr _ _ ((if_neg hi).trans (if_pos hnow)),
      fun _ => herr _ _ ((if_neg hi).trans (if_pos hnow))⟩

theorem Token.reissuable_iff (t : Token) : t.reissuable = true ↔ t.st = .done ∧ (t.result = .retry ∨ t.result = .timeout) := by
  simp [Token.reissuable]

/-- Settles O11: each operation's checks in the order of R406. -/
theorem tokenStateIsChecked : Obligations.TokenStateIsChecked := by
  intro s i now ⟨hi, hnow⟩
  replace hi : ¬ s.begin.numSlots ≤ i := Nat.not_le.2 hi
  replace hnow : ¬ now < s.begin.lastNow := Nat.not_lt.2 hnow
  have herr (r : Except OpError State) (e : OpError) (h : r = .error e) : s.answer r = .next (s.answered (Response.error e)) := by
    rw [h, State.answer_error]
  have hre := Token.reissuable_iff (s.begin.tokAt i)
  refine ⟨fun kind h => herr _ _ ?allocId, fun req h1 h2 => herr _ _ ?build, fun req b hst hb hbad => herr _ _ ?buddy,
    fun d x h => herr _ _ ?issue, fun d x h hd => herr _ _ ?issueDead, fun req h => herr _ _ ?reissue,
    fun req h hr hd => herr _ _ ?reissueDead, fun h1 h2 => herr _ _ ?poll, fun h => herr _ _ ?detach, fun h => herr _ _ ?release,
    fun h hl => herr _ _ ?attached⟩
  case allocId => rw [State.opAllocId, if_neg hi]; exact if_pos h
  case build => rw [State.opBuild, if_neg hi]; exact if_pos ⟨h1, h2⟩
  case buddy =>
    have hbad : s.begin.badBuddy i req = true := by
      rw [State.badBuddy, hb]
      exact (Bool.or_eq_true_iff ..).2 (hbad.imp decide_eq_true decide_eq_true)
    rw [State.opBuild, if_neg hi, if_neg (fun x => hst.elim x.1 x.2), if_pos hbad]
  case issue => rw [State.opIssue, if_neg hi, if_neg hnow]; exact if_pos h
  case issueDead =>
    have hbuilt : ¬ (s.begin.tokAt i).st ≠ .built := not_not.2 h
    rw [State.opIssue, if_neg hi, if_neg hnow, if_neg hbuilt]
    exact if_pos hd
  case reissue => rw [State.opReissue, if_neg hi, if_neg hnow, if_pos (by simpa using mt hre.1 h)]
  case reissueDead =>
    rw [State.opReissue, if_neg hi, if_neg hnow, if_neg (by simpa using hre.2 ⟨h, hr⟩)]
    exact if_pos hd
  case poll => rw [State.opPoll, if_neg hi, if_neg hnow]; exact (if_neg h1).trans (if_pos h2)
  case detach => rw [State.opDetach, if_neg hi]; exact if_pos h
  case release => rw [State.opRelease, if_neg hi]; exact if_pos h
  case attached =>
    have hst : ¬ ((s.begin.tokAt i).st = .free ∨ (s.begin.tokAt i).st = .active) := by
      rcases h with h | h | h <;> simp [h]
    rw [State.opRelease, if_neg hi, if_neg hst]
    exact if_pos hl

/-! ### The sequence search (43_timeout_ooo.md R385) -/

/-- Settles O56: by the first match and its buddy. -/
theorem sequenceSearch : Obligations.SequenceSearch := by
  intro s m L
  have hL : s.seqMatches m = L := List.filter_congr fun j _ => by simp [Bool.decide_and]
  rw [State.seqSearch, hL]
  refine ⟨fun h => by rw [h], fun j rest h hb => ?alone, fun j k rest h hb => ?two, fun j h => ?only⟩
  case alone => rw [h]; exact if_pos hb
  case two => rw [h]; exact if_neg hb
  case only =>
    rw [h]
    exact ite_self _

end

end Sys2Proof.Machine
end

section
/-! The pool operations not settled so far: ALLOC and ALLOC_ID (41_token_pool.md R240-R243), REISSUE (R257, R258), DETACH and
RELEASE (R260-R263).  REISSUE is brought to the launch of the token it re-binds, as ISSUE was. -/

namespace Sys2Proof.Machine

open Sys2Proof

section
variable {s : State} {i now : Nat}

/-! ### ALLOC -/

theorem State.mem_freeGeneral_iff : i ∈ s.freeGeneral ↔ i < s.numSlots - s.params.r ∧ (s.tokAt i).st = .free := by
  rw [State.freeGeneral, List.mem_filter, List.mem_range, decide_eq_true_eq]

/-- ALLOC where a general slot is free (R240). -/
theorem State.opAlloc_eq {kind : Byte} {carry : Nat} (h : s.freeGeneral ≠ []) :
    s.opAlloc kind carry = .ok ((s.drawn.modTok (s.chooseFrom s.freeGeneral) fun t =>
      { t with st := .allocated, allocKind := kind, ctrGeneric := carry }).respondSlot (s.chooseFrom s.freeGeneral)) :=
  if_neg h

/-- A draw that is the place of a slot in the list chooses the slot (R241). -/
theorem State.chooseFrom_of_draw {F : List Nat} {d : Nat} (hd : d < F.length) (h : s.draws.head? = some d) : s.chooseFrom F = F[d] := by
  rw [State.chooseFrom, List.headD_eq_head?_getD, h, Option.getD_some, Nat.mod_eq_of_lt hd, List.getD_eq_getElem F 0 hd]

/-- Settles O35: the free general slots are the list the draw chooses from. -/
theorem allocationTakesAFreeSlot : Obligations.AllocationTakesAFreeSlot := by
  intro s kind carry took drew general
  have hgeneral (i : Nat) : general i ↔ i ∈ s.begin.freeGeneral := State.mem_freeGeneral_iff.symm
  refine ⟨fun ⟨i, hi⟩ => ?some, fun i hi => ?draw, fun hn => ?none, fun i hi hst => ?id⟩
  case some =>
    have hF : s.begin.freeGeneral ≠ [] := List.ne_nil_of_mem ((hgeneral i).1 hi)
    exact ⟨s.begin.chooseFrom s.begin.freeGeneral, (hgeneral _).2 (State.chooseFrom_mem hF), congrArg s.answer (State.opAlloc_eq hF)⟩
  case draw =>
    obtain ⟨d, hd, hi⟩ := List.getElem_of_mem ((hgeneral i).1 hi)
    let u : State := { s with draws := d :: s.draws }
    have hc : u.begin.chooseFrom u.begin.freeGeneral = i := (State.chooseFrom_of_draw (s := u.begin) hd rfl).trans hi
    have hF : u.begin.freeGeneral ≠ [] := List.ne_nil_of_length_pos (Nat.zero_lt_of_lt hd)
    refine ⟨d, (congrArg u.answer (State.opAlloc_eq hF)).trans ?_⟩
    rw [hc]
    rfl
  case none =>
    have hF : s.begin.freeGeneral = [] := List.eq_nil_iff_forall_not_mem.2 fun i hi => hn ⟨i, (hgeneral i).2 hi⟩
    exact congrArg s.answer (if_pos hF)
  case id =>
    have hop : s.begin.opAllocId i kind = .ok _ := (if_neg (Nat.not_le.2 hi)).trans (if_neg (not_not.2 hst))
    exact congrArg s.answer hop

/-! ### REISSUE -/

theorem State.modTok_congr {f g : Token → Token} (hi : i < s.numSlots) (h : f (s.tokAt i) = g (s.tokAt i)) :
    s.modTok i f = s.modTok i g := by
  rw [State.modTok, State.modTok, State.modSlot, State.modSlot, State.slots_modify_congr hi]
  exact congrArg (fun t => { s.slotAt i with tok := t }) h

theorem State.modTok_modTok (s : State) (i : Nat) (f g : Token → Token) : (s.modTok i f).modTok i g = s.modTok i fun t => g (f t) :=
  State.modSlot_modSlot ..

/-- The state REISSUE launches from: the time set and the token re-bound and counted (R257). -/
def State.reissuing (s : State) (i : Nat) (tok : Token) (now : Nat) : State :=
  (s.atTime now).modTok i fun _ => { tok with ctrGeneric := tok.ctrGeneric + 1 }

/-- REISSUE of a token it accepts, as far as the budget check (R257, R258). -/
theorem State.opReissue_accepted (s : State) {req : Option BuildReq} (ha : s.Accepts i now) (hst : (s.tokAt i).st = .done)
    (hr : (s.tokAt i).result = .retry ∨ (s.tokAt i).result = .timeout) (hrun : s.run ≠ .dead) :
    s.opReissue i req now =
      if s.params.cfg.maxGeneric ≤ (s.tokAt i).ctrGeneric then
        .ok (((s.atTime now).setResult i .abort .budgetExhausted).respond true .abort)
      else
        ((s.atTime now).rebind i req).map fun u => (u.modTok i fun t => { t with ctrGeneric := t.ctrGeneric + 1 }).launch i now := by
  obtain ⟨hi, hnow⟩ := ha
  have hre : ¬ (s.tokAt i).reissuable = false := by rw [(Token.reissuable_iff _).2 ⟨hst, hr⟩]; nofun
  rw [State.opReissue, if_neg (Nat.not_le.2 hi), if_neg (Nat.not_lt.2 hnow), if_neg hre, if_neg hrun]
  cases (s.atTime now).rebind i req <;> rfl

/-- Within the budget REISSUE is a launch (R257). -/
theorem State.opReissue_eq_launch (s : State) {req : Option BuildReq} {tok : Token} (ha : s.Accepts i now)
    (hst : (s.tokAt i).st = .done) (hr : (s.tokAt i).result = .retry ∨ (s.tokAt i).result = .timeout) (hrun : s.run ≠ .dead)
    (hbud : (s.tokAt i).ctrGeneric < s.params.cfg.maxGeneric)
    (htok : req = none ∧ tok = s.tokAt i
      ∨ ∃ r V, req = some r ∧ (∀ b, r.buddy = some b → b < s.numSlots ∧ b ≠ i)
        ∧ buildWord s.params.layout s.params.cfg r = .ok V ∧ tok = (s.tokAt i).bind s.params.layout r V) :
    s.opReissue i req now = .ok ((s.reissuing i tok now).launch i now) := by
  have hi : i < (s.atTime now).numSlots := ha.1
  rw [s.opReissue_accepted ha hst hr hrun, if_neg (Nat.not_le.2 hbud)]
  obtain ⟨rfl, rfl⟩ | ⟨r, V, rfl, hb, hV, rfl⟩ := htok
  · exact congrArg (fun u => Except.ok (State.launch u i now)) (State.modTok_congr hi rfl)
  · have hbind : (s.atTime now).rebind i (some r) = .ok ((s.atTime now).modTok i fun t => t.bind s.params.layout r V) := by
      have hbad : (s.atTime now).badBuddy i r = false := State.badBuddy_eq_false_iff.2 hb
      have hV : buildWord (s.atTime now).params.layout (s.atTime now).params.cfg r = .ok V := hV
      simp only [State.rebind, hbad, hV]
      rfl
    rw [hbind]
    refine congrArg (fun u => Except.ok (State.launch u i now)) ?_
    rw [State.modTok_modTok]
    exact State.modTok_congr hi rfl

section
variable {tok : Token}

theorem State.tokAt_reissuing (hi : i < s.numSlots) :
    (s.reissuing i tok now).tokAt i = { tok with ctrGeneric := tok.ctrGeneric + 1 } := State.tokAt_modTok_self _ i _ hi

/-- The number of the launch does not depend on the count (R253). -/
theorem State.assignSeq_reissuing : (s.reissuing i tok now).assignSeq i = (s.modTok i fun _ => tok).assignSeq i := by
  have hcount : s.reissuing i tok now =
      ((s.atTime now).modTok i fun _ => tok).modTok i fun t => { t with ctrGeneric := t.ctrGeneric + 1 } :=
    ((s.atTime now).modTok_modTok i (fun _ => tok) fun t => { t with ctrGeneric := t.ctrGeneric + 1 }).symm
  rw [hcount, State.assignSeq_modTok (f := fun t => { t with ctrGeneric := t.ctrGeneric + 1 }) fun _ => ⟨rfl, rfl, rfl, rfl, rfl⟩]
  rfl

theorem State.launchWord_reissuing (hi : i < s.numSlots) :
    (s.reissuing i tok now).launchWord i =
      finalize s.params.layout tok.cmd ((s.slotAt i).odd ^^^ 1) (BitVec.ofNat 8 i) ((s.modTok i fun _ => tok).assignSeq i).seq
        tok.dealloc tok.xsum := by
  have hodd : ((s.reissuing i tok now).slotAt i).odd = (s.slotAt i).odd := State.slotAt_modTok_odd _ i i _
  rw [State.launchWord, State.nextOdd, State.tokAt_reissuing hi, State.assignSeq_reissuing, hodd]
  rfl

end

/-- Settles O38: REISSUE is the launch of the re-bound and counted token, allowed or denied. -/
theorem reissueLaunchesAgain : Obligations.ReissueLaunchesAgain := by
  intro s i now req tok has q fresh ha hst hr hrun hbud htok hseq W t
  let u : State := s.begin.reissuing i tok now
  have hi : i < s.begin.numSlots := ha.1
  have hexec : exec (.reissue i req now) s = .next (u.launch i now) :=
    congrArg s.answer (s.begin.opReissue_eq_launch ha hst hr hrun hbud htok)
  have hg : (s.begin.modTok i fun _ => tok).assignSeq i = ⟨has, q, fresh⟩ := State.assignSeq_rule _ i has q fresh hseq
  have hW : u.launchWord i = W := by rw [State.launchWord_reissuing hi, hg]; rfl
  have hfilter : u.filterPasses (u.launchWord i) = s.filterPasses W := by rw [hW]; rfl
  rw [hexec]
  refine ⟨fun hpass => ⟨congrArg _ ?launched, s.wroteSlot_inFlight ..⟩, fun hdeny => congrArg _ ?denied⟩
  case launched =>
    calc u.launch i now
        = u.inFlight i now (u.tokAt i) (u.assignSeq i).has (u.assignSeq i).seq (u.assignSeq i).fresh (u.launchWord i) :=
          State.launch_eq_inFlight ((State.modTok_numSlots ..).symm ▸ hi) rfl rfl (hfilter.trans hpass)
      _ = u.inFlight i now { tok with ctrGeneric := tok.ctrGeneric + 1 } has q fresh W := by
          rw [hW, State.assignSeq_reissuing, hg, State.tokAt_reissuing hi]
      _ = t := s.begin.inFlight_modTok_atTime ..
  case denied =>
    rw [u.launch_denied i now ((State.filterAllows_eq ..).trans (hfilter.trans hdeny))]
    simp only [u, State.reissuing, State.modTok_slots, List.modify_modify_eq]
    rfl

/-- Settles O39: the budget is checked before the replacement request. -/
theorem reissueBudgetAndRejection : Obligations.ReissueBudgetAndRejection := by
  intro s i now req ha hst hr hrun
  have hop := s.begin.opReissue_accepted (req := req) ha hst hr hrun
  refine ⟨fun hbud => congrArg s.answer (hop.trans (if_pos hbud)), fun hbud r hreq => ?_⟩
  subst hreq
  have hrej (e : OpError) (h : (s.begin.atTime now).rebind i (some r) = .error e) :
      exec (.reissue i (some r) now) s = .next (s.answered (Response.error e)) := by
    refine congrArg s.answer (a₂ := .error e) ?_
    have hbud : ¬ s.begin.params.cfg.maxGeneric ≤ (s.begin.tokAt i).ctrGeneric := Nat.not_le.2 hbud
    rw [hop, if_neg hbud, h]
    rfl
  refine ⟨fun b hb hbad => hrej _ ?buddy, fun hb e he => hrej e ?word⟩
  case buddy =>
    have hbad : (s.begin.atTime now).badBuddy i r = true := by
      rw [State.badBuddy, hb]
      exact (Bool.or_eq_true_iff ..).2 (hbad.imp decide_eq_true decide_eq_true)
    exact if_pos hbad
  case word =>
    have hgood : (s.begin.atTime now).badBuddy i r = false := State.badBuddy_eq_false_iff.2 hb
    have he : buildWord (s.begin.atTime now).params.layout (s.begin.atTime now).params.cfg r = .error e := he
    simp only [State.rebind, hgood, he]
    rfl

/-! ### DETACH and RELEASE -/

/-- Settles O41: past the checks each is one update of its slot. -/
theorem detachAndRelease : Obligations.DetachAndRelease := by
  intro s i hi t
  have hi : ¬ s.begin.numSlots ≤ i := Nat.not_le.2 hi
  refine ⟨fun hst => congrArg s.answer ((if_neg hi).trans (if_neg hst)), fun hst hl => ?_⟩
  have hst : ¬ ((s.begin.tokAt i).st = .free ∨ (s.begin.tokAt i).st = .active) := by
    rintro (h | h) <;> obtain x | x | x := hst <;> cases h.symm.trans x
  have hl : ¬ (s.begin.tokAt i).hostLive = true := Bool.eq_false_iff.1 hl
  exact congrArg s.answer ((if_neg hi).trans ((if_neg hst).trans (if_neg hl)))

end

end Sys2Proof.Machine
end

section
/-! The remaining decode rules of 42_status_decoder.md (R282, R288, R314, R318-R326, R330): each decode step in the normal form
`State.onSlot`, with one more way for a POLL to end than before, the device halted. -/

namespace Sys2Proof.Machine

open Sys2Proof

/-! ### Nothing new (R282, R287, R288) -/

/-- Settles O43: a DONE token answers at once; an ACTIVE one runs a POLL that finds nothing to do. -/
theorem pollWithNothingNew : Obligations.PollWithNothingNew := by
  intro s i now ha
  refine ⟨fun hdone => ?_, fun hp hu hn hd => State.poll_idle ha hp hu hn hd⟩
  obtain ⟨hi, hnow⟩ : i < s.begin.numSlots ∧ s.begin.lastNow ≤ now := ha
  exact congrArg s.answer ((if_neg (Nat.not_le.2 hi)).trans ((if_neg (Nat.not_lt.2 hnow)).trans (if_pos hdone)))

section
variable {s : State} {i now : Nat} {b : Byte} {c : StatusCode} {sl : Slot} {tok : Token} {ctr : RetryCtr} {st : Stats}
  {evs : List Event}

/-! ### A POLL that halts the device, and the unknown-command handling (R322, 60_exceptions.md R410) -/

/-- A failure code whose decode halts the device. -/
theorem State.poll_halts (h : s.FreshCode i now b c) (hr : tok.result ≠ .notComplete)
    (hd : (s.freshSlot i now b).decodeCode i b now c
      = ({ s with lastNow := now, run := .dead } : State).onSlot i (s.slotWith i tok ctr) st evs) :
    exec (.poll i now) s = .next { s.concluded i now tok ctr st evs with run := .dead } := by
  rw [State.poll_code s i now b c h, hd, State.pollRest_halted s i st evs now tok ctr h.lt hr]

/-- A failure code handled as an unknown command off the halting configuration. -/
theorem State.poll_unknown_concludes (h : s.FreshCode i now b c)
    (hd : (s.freshSlot i now b).decodeCode i b now c
      = (({ s with lastNow := now } : State).onSlot i (s.slotWith i tok ctr) st evs).unknownHw i)
    (hx : ¬ (s.params.cfg.haltOnWriteError = true ∧ tok.cls = .write)) :
    exec (.poll i now) s = .next (s.concluded i now { tok with result := .abort, why := some .unknownHw } ctr
      { st with unknownHw := st.unknownHw + 1 } evs) := by
  have hi : i < ({ s with lastNow := now } : State).numSlots := h.lt
  exact State.poll_concludes h nofun (hd.trans (State.onSlot_unknownHw_abort _ i _ _ _ hi hx))

/-- The same of a write where the configuration halts on write errors. -/
theorem State.poll_unknown_halts (h : s.FreshCode i now b c)
    (hd : (s.freshSlot i now b).decodeCode i b now c
      = (({ s with lastNow := now } : State).onSlot i (s.slotWith i tok ctr) st evs).unknownHw i)
    (hx : s.params.cfg.haltOnWriteError = true ∧ tok.cls = .write) :
    exec (.poll i now) s = .next { s.concluded i now { tok with result := .abortHard, why := some .unknownHw } ctr
      { st with unknownHw := st.unknownHw + 1 } (evs ++ [.halted i .unknownHw]) with run := .dead } := by
  have hi : i < ({ s with lastNow := now } : State).numSlots := h.lt
  exact State.poll_halts h nofun (hd.trans (State.onSlot_unknownHw_halt _ i _ _ _ hi hx))

/-! ### ECC_ERROR and XSUM_ERROR (R321, R324, 10_state.md R64) -/

theorem State.onSlot_decEccError (hi : i < s.numSlots) :
    (s.onSlot i sl st evs).decEccError i
      = if sl.ctr.ecc < s.params.cfg.maxEcc then
          s.onSlot i { sl with tok := { sl.tok with result := .retry, why := some .ecc }, ctr := { sl.ctr with ecc := sl.ctr.ecc + 1 } }
            { st with ecc := st.ecc + 1 } evs
        else
          s.onSlot i { sl with
            tok := { sl.tok with result := .abort, why := some .eccBudget }, ctr := { sl.ctr with ecc := sl.ctr.ecc + 1 } }
            { st with ecc := st.ecc + 1 } evs := by
  simp only [State.decEccError, State.onSlot_count, State.onSlot_modCtr, State.canRetryEcc, State.onSlot_slotAt s i _ _ evs hi,
    State.onSlot_params, State.onSlot_setResult, decide_eq_true_eq, Nat.succ_le_iff]

theorem State.onSlot_decXsumError (hi : i < s.numSlots) :
    (s.onSlot i sl st evs).decXsumError i
      = if sl.ctr.xsum < s.params.cfg.maxXsum then
          s.onSlot i { sl with
            tok := { sl.tok with result := .retry, why := some .xsum }, ctr := { sl.ctr with xsum := sl.ctr.xsum + 1 } }
            { st with xsum := st.xsum + 1 } evs
        else
          (s.onSlot i { sl with ctr := { sl.ctr with xsum := sl.ctr.xsum + 1 } } { st with xsum := st.xsum + 1 } evs).unknownHw i := by
  simp only [State.decXsumError, State.onSlot_count, State.onSlot_modCtr, State.canRetryXsum, State.onSlot_slotAt s i _ _ evs hi,
    State.onSlot_params, State.onSlot_setResult, decide_eq_true_eq, Nat.succ_le_iff]

end

/-- Settles O48: the counted codes split at their budget; what is past that of the checksum is the unknown-command handling. -/
theorem pollBudgetedAndUnknown : Obligations.PollBudgetedAndUnknown := by
  intro s i now b t c k st ends unknown
  refine ⟨fun h => ?ecc, fun h => ?xsum, fun h => ?unknown⟩
  case ecc =>
    have hi : i < ({ s with lastNow := now } : State).numSlots := h.lt
    exact ⟨fun hlt => State.poll_concludes h nofun ((State.onSlot_decEccError hi).trans (if_pos hlt)),
      fun hle => State.poll_concludes h nofun ((State.onSlot_decEccError hi).trans (if_neg (Nat.not_lt.2 hle)))⟩
  case xsum =>
    have hi : i < ({ s with lastNow := now } : State).numSlots := h.lt
    refine ⟨fun hlt => State.poll_concludes h nofun ((State.onSlot_decXsumError hi).trans (if_pos hlt)), fun hle => ?_⟩
    have hd := (State.onSlot_decXsumError (sl := { s.slotAt i with tok := t }) (st := st) (evs := [.statusChanged i b]) hi).trans
      (if_neg (Nat.not_lt.2 hle))
    exact ⟨State.poll_unknown_concludes h hd, fun hx hcls => State.poll_unknown_halts h hd ⟨hx, hcls⟩⟩
  case unknown =>
    exact ⟨State.poll_unknown_concludes h rfl, fun hx hcls => State.poll_unknown_halts h rfl ⟨hx, hcls⟩⟩

/-! ### ILLEGAL_CMD (R314, R318, R319) -/

section
variable {s : State} {i now : Nat} {b : Byte}

/-- Without EXT there is no subtype (R314). -/
theorem State.freshSlot_decIllegal_bare (hext : s.params.layout.stExtend b = false) :
    (s.freshSlot i now b).decIllegal i b = ({ s with lastNow := now } : State).onSlot i
      (s.slotWith i { (s.tokAt i).seen b now with result := .abort, why := some .illegalNoExt } (s.slotAt i).ctr)
      { s.stats.changed with illegal := s.stats.illegal + 1 } [.statusChanged i b] := by
  rw [State.decIllegal, State.freshSlot, State.onSlot_count, State.onSlot_params]
  exact (if_pos hext).trans (State.onSlot_setResult ..)

/-- A fault byte that names no subtype gives ABORT and sets `unspec_seen` (R318). -/
theorem State.faultSlot_unknownFc :
    (s.faultSlot i now b).unknownFc i = ({ s with lastNow := now, unspecSeen := true } : State).onSlot i
      (s.slotWith i { (s.tokAt i).seen b now with extCache := some (s.readExt i), result := .abort, why := some .unknownFc }
        (s.slotAt i).ctr)
      { s.stats.changed with illegal := s.stats.illegal + 1 } [.statusChanged i b] := by
  rw [State.unknownFc, State.faultSlot, State.onSlot_setResult]
  rfl

end

/-- Settles O49: by EXT and the subtype. -/
theorem pollIllegalCommand : Obligations.PollIllegalCommand := by
  intro s i now b h seen stats v t ctr ev fc
  have hfault (hext : s.params.layout.stExtend b = true) {f : Option FaultCode} (hf : fc = f) :
      (s.freshSlot i now b).decodeCode i b now .illegalCmd = (s.faultSlot i now b).decodeFault i f :=
    (State.freshSlot_decIllegal h.lt hext).trans (congrArg _ hf)
  refine ⟨fun hext => ?bare, fun hext hf => ?fatal, fun hext hf hx => ?halt, fun hext hf hx => ?unknown, fun hext hf => ?unnamed⟩
  case bare => exact State.poll_concludes h nofun (State.freshSlot_decIllegal_bare hext)
  case fatal => exact State.poll_halts h nofun ((hfault hext hf).trans (State.onSlot_abortHard ..))
  case halt => exact State.poll_unknown_halts h (hfault hext hf) hx
  case unknown => exact State.poll_unknown_concludes h (hfault hext hf) hx
  case unnamed =>
    rw [State.poll_code s i now b _ h, hfault hext hf]
    exact congrArg _ ((congrArg (State.pollRest · i now) State.faultSlot_unknownFc).trans
      (State.pollRest_concluded { s with unspecSeen := true } i _ _ now _ _ h.lt nofun))

/-! ### EXE_ERROR and DEV_WARNING (R320, R326) -/

section
variable {s : State} {i now : Nat} {b : Byte} {sl : Slot} {st : Stats} {evs : List Event}

/-- A log record carries the extended status where EXT is set, and keeps it then (R283, R320, R326). -/
theorem State.onSlot_logExt {level : LogLevel} {what : LogWhat} (hi : i < s.numSlots) (hc : sl.tok.extCache = none) :
    (s.onSlot i sl st evs).logExt i b level what
      = s.onSlot i { sl with tok := sl.tok.withExt s.params.layout b (s.readExt i) } st
          (evs ++ [.log level i what (logged s.params.layout b (s.readExt i))]) := by
  rw [State.logExt, State.onSlot_params, Token.withExt, logged]
  by_cases hext : s.params.layout.stExtend b = true
  · simp only [if_pos hext, State.onSlot_extValue hi hc, State.onSlot_extFetched hi hc, State.onSlot_emit]
  · simp only [if_neg hext, State.onSlot_emit]

/-- EXE_ERROR of a device-directed command (R320). -/
theorem State.onSlot_decExeError_devdir (hi : i < s.numSlots) (hd : sl.tok.devdir = true) (hc : sl.tok.extCache = none) :
    (s.onSlot i sl st evs).decExeError i b
      = ({ s with run := .dead } : State).onSlot i
          { sl with tok := { sl.tok.withExt s.params.layout b (s.readExt i) with result := .abortHard, why := some .exeDevdir } }
          { st with exe := st.exe + 1 }
          (evs ++ [.log .err i .exeError (logged s.params.layout b (s.readExt i))] ++ [.halted i .exeDevdir]) := by
  rw [State.decExeError, State.onSlot_count, State.onSlot_tokAt s i sl _ evs hi, if_pos hd, State.onSlot_logExt hi hc,
    State.onSlot_abortHard]

/-- EXE_ERROR of any other command (R320). -/
theorem State.onSlot_decExeError_other (hi : i < s.numSlots) (hd : sl.tok.devdir = false) :
    (s.onSlot i sl st evs).decExeError i b
      = s.onSlot i { sl with tok := { sl.tok with result := .abort, why := some .exe } } { st with exe := st.exe + 1 } evs := by
  rw [State.decExeError, State.onSlot_count, State.onSlot_tokAt s i sl _ evs hi, if_neg (ne_true_of_eq_false hd),
    State.onSlot_setResult]

/-- DEV_WARNING (R326). -/
theorem State.onSlot_decDevWarning (hi : i < s.numSlots) (hc : sl.tok.extCache = none) :
    let t := sl.tok.withExt s.params.layout b (s.readExt i)
    (s.onSlot i sl st evs).decDevWarning i b now
      = s.onSlot i { sl with tok := { t with stage := .waitDev, armedTime := now, tmoDur := (s.params.cfg.timeouts t.cls).waitDev } }
          { st with warning := st.warning + 1 } (evs ++ [.log .warn i .devWarning (logged s.params.layout b (s.readExt i))]) := by
  intro t
  simp only [State.decDevWarning, State.onSlot_count, State.onSlot_logExt hi hc, State.onSlot_modTok, State.onSlot_params,
    Cfg.tmo_eq]
  rfl

end

/-- Settles O51: by the code and the token's direction. -/
theorem pollExecutionErrorAndWarning : Obligations.PollExecutionErrorAndWarning := by
  intro s i now b seen v t exe d
  refine ⟨fun h hdev => ?devdir, fun h hdev => ?other, fun h => ?warning⟩
  case devdir =>
    have hi : i < ({ s with lastNow := now } : State).numSlots := h.lt
    exact State.poll_halts h nofun (State.onSlot_decExeError_devdir hi hdev rfl)
  case other =>
    have hi : i < ({ s with lastNow := now } : State).numSlots := h.lt
    exact State.poll_concludes h nofun (State.onSlot_decExeError_other hi hdev)
  case warning =>
    have hi : i < ({ s with lastNow := now } : State).numSlots := h.lt
    obtain ⟨⟨-, ⟨hst, hr⟩, -⟩, -⟩ := id h
    have ht : t.Observed b now := (Token.seen_observed hst hr).withExt ..
    exact State.poll_waits h ⟨ht.st, ht.result, ht.lastStatus, ht.touchedTime⟩ (State.onSlot_decDevWarning hi rfl)

/-! ### DUP_ERROR (R330) -/

/-- Settles O52: by the buddy, the class and the host buffer. -/
theorem pollDuplicate : Obligations.PollDuplicate := by
  intro s i now b h t ends
  have hi : i < ({ s with lastNow := now } : State).numSlots := h.lt
  have hd : (s.freshSlot i now b).decodeCode i b now .dupError = (s.freshSlot i now b).decDupError i := rfl
  rw [State.decDupError, State.freshSlot, State.onSlot_count] at hd
  simp only [State.onSlot_tokAt _ i _ _ _ hi] at hd
  refine ⟨fun hb hcls => ?read, fun hb hcls => ?wbufs, fun hb hl => ?retry, fun hb hl => ?abort⟩
  case read =>
    rw [if_pos hb, if_neg (not_not.2 hcls), State.onSlot_modTok] at hd
    exact State.poll_concludes h nofun hd
  case wbufs =>
    rw [if_pos hb, if_pos hcls, State.onSlot_freeWbufs _ i _ _ _ hi, State.onSlot_modTok] at hd
    exact State.poll_concludes h nofun hd
  case retry =>
    rw [if_neg (not_not.2 hb), if_pos hl, State.onSlot_setResult] at hd
    exact State.poll_concludes h nofun hd
  case abort =>
    rw [if_neg (not_not.2 hb), if_neg (ne_true_of_eq_false hl), State.onSlot_setResult] at hd
    exact State.poll_concludes h nofun hd

end Sys2Proof.Machine
end

section
/-! Out-of-order status under policy QUICK (43_timeout_ooo.md R382, R383, R385): what the two loops over the tokens found leave,
by induction on the list, and from it the state a POLL goes on from. -/

namespace Sys2Proof.Machine

open Sys2Proof

section
variable {s t u w : State} {i j now qt : Nat} {b : Byte} {evs : List Event} {l : List Nat}

/-! ### A POLL that goes on from the state its decode leaves -/

/-- The rest of a POLL from a state that shows its byte observed and its token pending (R280, R284, R362). -/
theorem State.goesOn_of_decode (h : exec (.poll i now) s = .next (w.pollRest i now))
    (hw : w = { u with lastNow := now, resp := { Response.empty with events := evs } }) (ha : u.Accepts i now)
    (ho : (u.tokAt i).Observed b now) (hc : (u.slotAt i).cache = some b) :
    s.PollGoesOn u i now evs
      ∧ (now < (u.tokAt i).armedTime + (u.tokAt i).tmoDur → exec (.poll i now) s = .next { u with
          lastNow := now, resp := Response.ofToken false .notComplete evs }) := by
  have hp : u.Polling i := ⟨ho.st, ho.result⟩
  have hu : u.Unchanged i := .inr (hc.trans ho.lastStatus.symm)
  have hstart : w = (({ u with lastNow := now } : State).onSlot i (u.slotAt i) u.stats []).withEvents evs := by
    have hbegin : ({ u with lastNow := now } : State).begin = ({ u with lastNow := now } : State).onSlot i (u.slotAt i) u.stats [] :=
      State.onSlot_start _ i ha.1
    rw [hw, ← hbegin, State.withEvents, State.begin_resp, Response.empty, List.append_nil]
    rfl
  have hgoes : s.PollGoesOn u i now evs := State.pollGoesOn_of_rest s i evs u now ha hp hu (hstart ▸ h)
  refine ⟨hgoes, fun hd => ?_⟩
  have hnot : u.NotLost i now := (u.notLost_iff i now).2 (.inl (Token.looksLost_touched _ _ now ho.touchedTime))
  rw [hgoes.poll_eq (State.poll_idle ha hp hu hnot hd), State.withEvents]
  simp only [Response.ofToken, List.append_nil]

/-! ### The two loops -/

/-- The tokens of a list armed and marked (R382). -/
theorem State.armMissing_frame : s.armMissing now qt l = { s with slots := (s.armMissing now qt l).slots } := by
  induction l generalizing s with
  | nil => rfl
  | cons j l ih =>
    rw [State.armMissing, ih]
    rfl

theorem State.armMissing_numSlots : (s.armMissing now qt l).numSlots = s.numSlots := by
  induction l generalizing s with
  | nil => rfl
  | cons j l ih => rw [State.armMissing, ih, State.modTok_numSlots]

theorem State.armMissing_slotAt (hj : j < s.numSlots) :
    (s.armMissing now qt l).slotAt j = { s.slotAt j with
      tok := if j ∈ l then { s.tokAt j with armedTime := now, tmoDur := qt, oooMissing := true } else s.tokAt j } := by
  induction l generalizing s with
  | nil => rfl
  | cons k l ih =>
    rw [State.armMissing, ih (by simpa using hj), State.tokAt]
    by_cases hk : k = j
    · subst hk
      rw [State.slotAt_modTok, if_pos ⟨rfl, hj⟩, if_pos List.mem_cons_self]
      exact congrArg (fun t => { s.slotAt k with tok := t }) (ite_self _)
    · rw [State.slotAt_modTok, if_neg fun x => hk x.1]
      simp only [List.mem_cons, Ne.symm hk, false_or]
      rfl

/-- What the replay of a list of commands leaves (R383): the commands as they stand, in order, with new issue times, the count and
the events. -/
structure State.Replayed (s : State) (now : Nat) (l : List Nat) (t : State) : Prop where
  frame : t = { s with
    slots := t.slots, mem := t.mem, submitted := s.submitted ++ l.map fun j => (j, (s.tokAt j).wire),
    stats := { s.stats with oooReplay := s.stats.oooReplay + l.length },
    resp := { s.resp with events := s.resp.events ++ l.map fun j => Event.rewrite j .oooImmediate } }
  numSlots : t.numSlots = s.numSlots
  slot : ∀ j, j < s.numSlots → t.slotAt j = { s.slotAt j with
    tok := if j ∈ l then { s.tokAt j with issueTime := now } else s.tokAt j }
  outside : ∀ a, (∀ j ∈ l, ¬ s.inCmdSlot j a) → t.mem.read a = s.mem.read a
  inside : ∀ j ∈ l, ∀ k, k < 64 → t.mem.read (s.params.cmdBase + 64 * j + k) = ((s.tokAt j).wire.bytes)[k]?

theorem State.Replayed.nil (s : State) (now : Nat) : s.Replayed now [] s :=
  ⟨by simp, rfl, fun _ _ => rfl, fun _ _ => rfl, nofun⟩

/-- The state after the replay of one command, counted. -/
def State.replayedOne (s : State) (j now : Nat) : State :=
  (s.rewrite j .oooImmediate now).count fun c => { c with oooReplay := c.oooReplay + 1 }

theorem State.replayedOne_eq (hrun : s.run ≠ .dead) :
    s.replayedOne j now = { s with
      slots := s.slots.modify j (fun sl => { sl with tok := { sl.tok with issueTime := now } })
      mem := s.mem.writeBytes (s.cmdAddr j) (s.tokAt j).wire.bytes, submitted := s.submitted ++ [(j, (s.tokAt j).wire)]
      stats := { s.stats with oooReplay := s.stats.oooReplay + 1 }
      resp := { s.resp with events := s.resp.events ++ [.rewrite j .oooImmediate] } } := by
  rw [State.replayedOne, State.rewrite_eq s j _ now hrun]
  rfl

/-- A replay and the replay of a list after it. -/
theorem State.Replayed.cons (hrun : s.run ≠ .dead) (h : (s.replayedOne j now).Replayed now l t) : s.Replayed now (j :: l) t := by
  have hu := State.replayedOne_eq (s := s) (j := j) (now := now) hrun
  generalize s.replayedOne j now = u at hu h
  have hslot (k : Nat) : u.slotAt k = (s.modTok j fun t => { t with issueTime := now }).slotAt k :=
    State.slotAt_of_slots (by rw [hu]; rfl) k
  have hwire (k : Nat) : (u.tokAt k).wire = (s.tokAt k).wire := by
    rw [State.tokAt, hslot, State.slotAt_modTok]
    split <;> rfl
  have hparams : u.params = s.params := by rw [hu]
  have hmem : u.mem = (s.writeCmd j (s.tokAt j).wire).mem := by rw [hu]; rfl
  obtain ⟨hin, hout⟩ := s.wroteSlot_writeCmd j (s.tokAt j).wire
  obtain ⟨hframe, hnum, hslots, houtside, hinside⟩ := h
  have hn : u.numSlots = s.numSlots := by rw [hu]; exact List.length_modify _ _ _
  simp only [hwire] at hframe hinside
  refine ⟨?frame, hnum.trans hn, fun k hk => ?slot, fun a ha => ?outside, fun k hk m hm => ?inside⟩
  case frame =>
    rw [hframe]
    simp only [hu, List.map_cons, List.append_assoc, List.singleton_append, List.length_cons, Nat.add_assoc, Nat.add_comm 1]
  case slot =>
    rw [hslots k (hn ▸ hk), State.tokAt, hslot, State.slotAt_modTok]
    by_cases hkj : j = k
    · subst hkj
      rw [if_pos ⟨rfl, hk⟩, if_pos List.mem_cons_self]
      exact congrArg (fun t => { s.slotAt j with tok := t }) (ite_self _)
    · rw [if_neg fun x => hkj x.1]
      simp only [List.mem_cons, Ne.symm hkj, false_or]
      rfl
  case outside =>
    have hrest : ∀ k ∈ l, ¬ u.inCmdSlot k a := fun k hk => by
      rw [State.inCmdSlot, hparams]
      exact ha k (List.mem_cons_of_mem _ hk)
    rw [houtside a hrest, hmem, hout a (ha j List.mem_cons_self)]
  case inside =>
    rw [hparams] at hinside
    by_cases hkl : k ∈ l
    · exact hinside k hkl m hm
    obtain rfl : k = j := (List.mem_cons.1 hk).resolve_right hkl
    have hrest : ∀ q ∈ l, ¬ u.inCmdSlot q (s.params.cmdBase + 64 * k + m) := fun q hq => by
      have hne : q ≠ k := fun e => hkl (e ▸ hq)
      rw [State.inCmdSlot, hparams]
      omega
    rw [houtside _ hrest, hmem, hin m hm]

theorem State.replayNow_replayed (hrun : s.run ≠ .dead) (l : List Nat) : s.Replayed now l (s.replayNow now l) := by
  induction l generalizing s with
  | nil => exact .nil s now
  | cons j l ih =>
    rw [State.replayNow, if_neg hrun]
    exact .cons hrun (ih (s := s.replayedOne j now) (by rw [State.replayedOne_eq hrun]; exact hrun))

theorem State.replayNow_dead (hrun : s.run = .dead) (l : List Nat) : s.replayNow now l = s := by
  cases l with
  | nil => rfl
  | cons j l => exact if_pos hrun

/-- The search looks at the active list and at the numbers and buddies of its tokens only (R385). -/
theorem State.seqSearch_congr (ha : u.active = s.active)
    (ht : ∀ j, (u.tokAt j).hasSeq = (s.tokAt j).hasSeq ∧ (u.tokAt j).seq = (s.tokAt j).seq ∧ (u.tokAt j).buddy = (s.tokAt j).buddy)
    (m : BitVec 32) : u.seqSearch m = s.seqSearch m := by
  have hm : u.seqMatches m = s.seqMatches m := by
    rw [State.seqMatches, State.seqMatches, ha]
    refine List.filter_congr fun j _ => ?_
    obtain ⟨hhas, hseq, -⟩ := ht j
    rw [hhas, hseq]
  rw [State.seqSearch, State.seqSearch, hm]
  cases s.seqMatches m with
  | nil => rfl
  | cons j rest =>
    obtain ⟨-, -, hbuddy⟩ := ht j
    simp only [hbuddy]

/-! ### The decode of an OOO status with EXT (R332, R380) -/

/-- The token of a POLL that found the byte `b` fresh and an OOO, with its extended status kept (R283, R332). -/
def State.oooToken (s : State) (i now : Nat) (b : Byte) : Token :=
  { (s.tokAt i).seen b now with extCache := some (s.readExt i), seenInHw := true }

/-- The state in which an out-of-order status is handled: counted, the token marked, its extended status kept. -/
def State.oooSlot (s : State) (i now : Nat) (b : Byte) : State :=
  ({ s with lastNow := now } : State).onSlot i { s.slotAt i with tok := s.oooToken i now b }
    { s.stats.changed with ooo := s.stats.ooo + 1 } [.statusChanged i b]

theorem State.oooSlot_slotAt (hi : i < s.numSlots) (j : Nat) :
    (s.oooSlot i now b).slotAt j = { s.slotAt j with tok := if j = i then s.oooToken i now b else s.tokAt j } := by
  by_cases hj : j = i
  · subst hj
    rw [if_pos rfl]
    exact State.onSlot_slotAt { s with lastNow := now } j _ _ _ hi
  · rw [if_neg hj]
    have h : (s.oooSlot i now b).slots[j]? = s.slots[j]? := List.getElem?_set_ne (Ne.symm hj)
    rw [State.slotAt, List.getD_eq_getElem?_getD, h]
    exact (List.getD_eq_getElem?_getD ..).symm

theorem State.oooSlot_tokAt (hi : i < s.numSlots) (j : Nat) :
    (s.oooSlot i now b).tokAt j = if j = i then s.oooToken i now b else s.tokAt j := by
  rw [State.tokAt, State.oooSlot_slotAt hi]

theorem State.oooSlot_numSlots : (s.oooSlot i now b).numSlots = s.numSlots := State.onSlot_numSlots ..

/-- Observing the byte changes nothing the search looks at. -/
theorem State.oooSlot_seqSearch (hi : i < s.numSlots) (m : BitVec 32) : (s.oooSlot i now b).seqSearch m = s.seqSearch m := by
  refine State.seqSearch_congr (s := s) (u := s.oooSlot i now b) rfl (fun j => ?_) m
  rw [State.oooSlot_tokAt hi]
  split
  next hj => rw [hj]; exact ⟨rfl, rfl, rfl⟩
  next => exact ⟨rfl, rfl, rfl⟩

/-- A POLL of such a status runs the policy's handling there. -/
theorem State.poll_ooo (h : s.FreshCode i now b .ooo) (hc : (s.tokAt i).cls ≠ .control) (hext : s.params.layout.stExtend b = true) :
    exec (.poll i now) s = .next (((s.oooSlot i now b).oooHandle i (s.readExt i) now).pollRest i now) := by
  have hi : i < ({ s with lastNow := now } : State).numSlots := h.lt
  have hd := (State.onSlot_decOoo (s := { s with lastNow := now }) (sl := { s.slotAt i with tok := (s.tokAt i).seen b now })
    (st := s.stats.changed) (evs := [.statusChanged i b]) (b := b) (now := now) hi hc rfl).trans (if_pos hext)
  rw [Token.withExt, if_pos hext] at hd
  rw [State.poll_code s i now b _ h]
  exact congrArg (fun u => Host.Outcome.next (State.pollRest u i now)) hd

/-- Policy QUICK by its two forms (R382, R383). -/
theorem State.oooHandle_quick (hi : i < s.numSlots) (hp : s.params.cfg.oooPolicy = .quick) (v : Word) :
    (s.oooSlot i now b).oooHandle i v now =
      if s.params.cfg.quickTimeout (s.tokAt i).cls ≠ 0 then
        (s.oooSlot i now b).armMissing now (s.params.cfg.quickTimeout (s.tokAt i).cls) (s.seqSearch (s.params.layout.extMissSeq v))
      else (s.oooSlot i now b).replayNow now (s.seqSearch (s.params.layout.extMissSeq v)) := by
  have hparams : (s.oooSlot i now b).params = s.params := rfl
  have hcls : ((s.oooSlot i now b).tokAt i).cls = (s.tokAt i).cls := by rw [State.oooSlot_tokAt hi, if_pos rfl]; rfl
  rw [State.oooHandle, hparams, hp]
  simp only [hcls, Cfg.oooQuick_eq, State.oooSlot_seqSearch hi]

end

/-- Settles O54: the loop that arms, and the POLL that goes on from the state it leaves. -/
theorem outOfOrderArmsTheMissing : Obligations.OutOfOrderArmsTheMissing := by
  intro s i now b h hc hext hp hq v L own
  obtain ⟨⟨ha, ⟨hst, hr⟩, ⟨hcache, -⟩, -⟩, -⟩ := id h
  have hown : own.Observed b now := ⟨hst, hr, rfl, rfl⟩
  let w : State := (s.oooSlot i now b).armMissing now (s.params.cfg.quickTimeout (s.tokAt i).cls) L
  let u : State := { s with slots := w.slots, stats := { s.stats.changed with ooo := s.stats.ooo + 1 } }
  have hw : w = { u with lastNow := now, resp := { Response.empty with events := [.statusChanged i b] } } := State.armMissing_frame
  have hnum : u.numSlots = s.numSlots := State.armMissing_numSlots.trans State.oooSlot_numSlots
  have hslot (j : Nat) (hj : j < s.numSlots) : u.slotAt j = { s.slotAt j with
      tok := if j ∈ L then
          { (if j = i then own else s.tokAt j) with
            armedTime := now, tmoDur := s.params.cfg.quickTimeout (s.tokAt i).cls, oooMissing := true }
        else if j = i then own else s.tokAt j } := by
    have e : u.slotAt j = w.slotAt j := State.slotAt_of_slots rfl j
    rw [e, State.armMissing_slotAt (State.oooSlot_numSlots.symm ▸ hj), State.oooSlot_tokAt ha.1, State.oooSlot_slotAt ha.1]
    rfl
  have hpoll : exec (.poll i now) s = .next (w.pollRest i now) := by
    rw [State.poll_ooo h hc hext, State.oooHandle_quick ha.1 hp, if_pos (Nat.ne_of_gt hq)]
  have hobserved : (u.tokAt i).Observed b now := by
    rw [State.tokAt, hslot i ha.1, if_pos rfl]
    split
    · exact ⟨hown.st, hown.result, hown.lastStatus, hown.touchedTime⟩
    · exact hown
  have hself : (u.slotAt i).cache = some b := by rw [hslot i ha.1]; exact hcache
  obtain ⟨hgoes, hwait⟩ := State.goesOn_of_decode hpoll hw ⟨hnum ▸ ha.1, ha.2⟩ hobserved hself
  exact ⟨u, hslot, hnum, rfl, hgoes, hwait⟩

/-- Settles O55: the loop that replays, empty in DEAD, and the POLL that goes on from the state it leaves. -/
theorem outOfOrderReplaysAtOnce : Obligations.OutOfOrderReplaysAtOnce := by
  intro s i now b h hc hext hp hq v L own evs
  obtain ⟨⟨ha, ⟨hst, hr⟩, ⟨hcache, -⟩, -⟩, -⟩ := id h
  have hown : own.Observed b now := ⟨hst, hr, rfl, rfl⟩
  let w : State := (s.oooSlot i now b).replayNow now (s.seqSearch (s.params.layout.extMissSeq v))
  have hreplay : (s.oooSlot i now b).Replayed now L w := by
    by_cases hrun : s.run = .dead
    · rw [show L = [] from if_pos hrun, show w = s.oooSlot i now b from State.replayNow_dead (s := s.oooSlot i now b) hrun _]
      exact .nil _ now
    · rw [show L = s.seqSearch (s.params.layout.extMissSeq v) from if_neg hrun]
      exact State.replayNow_replayed (s := s.oooSlot i now b) hrun _
  obtain ⟨hframe, hnum, hslots, houtside, hinside⟩ := hreplay
  have hwire (j : Nat) : ((s.oooSlot i now b).tokAt j).wire = (s.tokAt j).wire := by
    rw [State.oooSlot_tokAt ha.1]
    split
    next hj => rw [hj]; rfl
    next => rfl
  simp only [hwire] at hframe hinside
  let u : State := { s with
    slots := w.slots, mem := w.mem, submitted := s.submitted ++ L.map (fun j => (j, (s.tokAt j).wire))
    stats := { s.stats.changed with ooo := s.stats.ooo + 1, oooReplay := s.stats.oooReplay + L.length } }
  have hw : w = { u with lastNow := now, resp := { Response.empty with events := evs } } := hframe
  replace hnum : u.numSlots = s.numSlots := hnum.trans State.oooSlot_numSlots
  have hslot (j : Nat) (hj : j < s.numSlots) : u.slotAt j = { s.slotAt j with
      tok := if j ∈ L then { (if j = i then own else s.tokAt j) with issueTime := now } else if j = i then own else s.tokAt j } := by
    have e : u.slotAt j = w.slotAt j := State.slotAt_of_slots rfl j
    rw [e, hslots j (State.oooSlot_numSlots.symm ▸ hj), State.oooSlot_tokAt ha.1, State.oooSlot_slotAt ha.1]
    rfl
  have hpoll : exec (.poll i now) s = .next (w.pollRest i now) := by
    rw [State.poll_ooo h hc hext, State.oooHandle_quick ha.1 hp, if_neg (not_not.2 hq)]
  have hobserved : (u.tokAt i).Observed b now := by
    rw [State.tokAt, hslot i ha.1, if_pos rfl]
    split
    · exact ⟨hown.st, hown.result, hown.lastStatus, hown.touchedTime⟩
    · exact hown
  have hself : (u.slotAt i).cache = some b := by rw [hslot i ha.1]; exact hcache
  obtain ⟨hgoes, hwait⟩ := State.goesOn_of_decode hpoll hw ⟨hnum ▸ ha.1, ha.2⟩ hobserved hself
  exact ⟨u, hslot, hnum, houtside, hinside, rfl, hgoes, hwait⟩

end Sys2Proof.Machine
end

section
/-! The statistics decide nothing (10_state.md R48).  Two states that differ in the statistics alone are `Alike`; every named step
keeps states alike, since what it tests and what it writes elsewhere does not read the statistics.  A step without a test in it
does so by computation. -/

namespace Sys2Proof.Machine

open Sys2Proof

/-- `u` is `s` but for the statistics. -/
def State.Alike (s u : State) : Prop := ∃ c, u = { s with stats := c }

section
variable {s t u v w : State} {i j now : Nat} {b : Byte}

/-! ### Tests and named updates -/

/-- One test on both sides. -/
theorem State.Alike.ite {p : Prop} [Decidable p] {s' u' : State} (h : s.Alike s') (k : u.Alike u') :
    (if p then s else u).Alike (if p then s' else u') := by
  split
  · exact h
  · exact k

/-- One choice on both sides. -/
theorem State.Alike.elim {α : Type} {f g : α → State} (o : Option α) (h : s.Alike u) (k : ∀ a, (f a).Alike (g a)) :
    (o.elim s f).Alike (o.elim u g) := by
  cases o with
  | none => exact h
  | some a => exact k a

theorem State.Alike.modTok {f : Token → Token} (h : s.Alike u) : (s.modTok j f).Alike (u.modTok j f) := by
  obtain ⟨c, rfl⟩ := h
  exact ⟨_, rfl⟩

theorem State.Alike.count {f : Stats → Stats} (h : s.Alike u) : (s.count f).Alike (u.count f) := by
  obtain ⟨c, rfl⟩ := h
  exact ⟨_, rfl⟩

theorem State.Alike.emit {e : Event} (h : s.Alike u) : (s.emit e).Alike (u.emit e) := by
  obtain ⟨c, rfl⟩ := h
  exact ⟨_, rfl⟩

theorem State.Alike.setResult {r : Result} {y : Reason} (h : s.Alike u) : (s.setResult i r y).Alike (u.setResult i r y) := h.modTok

theorem State.Alike.abortHard {y : Reason} (h : s.Alike u) : (s.abortHard i y).Alike (u.abortHard i y) := by
  obtain ⟨c, rfl⟩ := h
  exact ⟨_, rfl⟩

theorem State.Alike.modCtr {f : RetryCtr → RetryCtr} (h : s.Alike u) : (s.modCtr i f).Alike (u.modCtr i f) := by
  obtain ⟨c, rfl⟩ := h
  exact ⟨_, rfl⟩

/-! ### Re-writes, lost commands, timeouts and out-of-order recovery (43_timeout_ooo.md) -/

theorem State.Alike.rewrite {cause : RewriteCause} (h : s.Alike u) : (s.rewrite j cause now).Alike (u.rewrite j cause now) := by
  obtain ⟨c, rfl⟩ := h
  exact .ite ⟨_, rfl⟩ ⟨_, rfl⟩

theorem State.Alike.lostCheck (h : s.Alike u) : (s.lostCheck i now).Alike (u.lostCheck i now) := by
  have hr : (s.rewrite i .lost now).Alike (u.rewrite i .lost now) := h.rewrite
  obtain ⟨c, rfl⟩ := h
  exact .ite hr.modTok.count ⟨_, rfl⟩

theorem State.Alike.oooTimeout (h : s.Alike u) : (s.oooTimeout i now).Alike (u.oooTimeout i now) := by
  have hr := h.rewrite (j := i) (cause := .oooTimeout) (now := now) |>.count (f := fun c => { c with oooReplay := c.oooReplay + 1 })
  rw [State.oooTimeout, State.oooTimeout]
  generalize (s.rewrite i .oooTimeout now).count _ = v, (u.rewrite i .oooTimeout now).count _ = w at hr ⊢
  obtain ⟨c, rfl⟩ := hr
  exact .ite ⟨_, rfl⟩ ⟨_, rfl⟩

theorem State.Alike.realTimeout (h : s.Alike u) : (s.realTimeout i).Alike (u.realTimeout i) := by
  obtain ⟨c, rfl⟩ := h
  rw [State.realTimeout, State.realTimeout]
  by_cases hq : (s.tokAt i).quiet = true
  · rw [if_pos hq, if_pos (by exact hq)]
    exact ⟨_, rfl⟩
  · rw [if_neg hq, if_neg (by exact hq)]
    exact ⟨_, rfl⟩

theorem State.Alike.timeoutHandle (h : s.Alike u) : (s.timeoutHandle i now).Alike (u.timeoutHandle i now) := by
  have ho : (s.oooTimeout i now).Alike (u.oooTimeout i now) := h.oooTimeout
  have hr : (s.realTimeout i).Alike (u.realTimeout i) := h.realTimeout
  obtain ⟨c, rfl⟩ := h
  exact .ite ⟨_, rfl⟩ (.ite ⟨_, rfl⟩ (.ite ho hr))

theorem State.Alike.timeoutCheck (h : s.Alike u) : (s.timeoutCheck i now).Alike (u.timeoutCheck i now) := by
  have ht : (s.timeoutHandle i now).Alike (u.timeoutHandle i now) := h.timeoutHandle
  obtain ⟨c, rfl⟩ := h
  exact .ite ht ⟨_, rfl⟩

theorem State.Alike.armMissing {qt : Nat} {l : List Nat} (h : s.Alike u) : (s.armMissing now qt l).Alike (u.armMissing now qt l) := by
  induction l generalizing s u with
  | nil => exact h
  | cons j l ih => exact ih h.modTok

theorem State.Alike.replayNow {l : List Nat} (h : s.Alike u) : (s.replayNow now l).Alike (u.replayNow now l) := by
  induction l generalizing s u with
  | nil => exact h
  | cons j l ih =>
    have hr := ih (h.rewrite (j := j) (cause := .oooImmediate) (now := now)
      |>.count (f := fun c => { c with oooReplay := c.oooReplay + 1 }))
    obtain ⟨c, rfl⟩ := h
    exact .ite ⟨_, rfl⟩ hr

theorem State.Alike.oooHandle {x : Word} (h : s.Alike u) : (s.oooHandle i x now).Alike (u.oooHandle i x now) := by
  have harm {qt : Nat} {l : List Nat} : (s.armMissing now qt l).Alike (u.armMissing now qt l) := h.armMissing
  have hreplay {l : List Nat} : (s.replayNow now l).Alike (u.replayNow now l) := h.replayNow
  obtain ⟨c, rfl⟩ := h
  rw [State.oooHandle, State.oooHandle]
  dsimp only
  cases s.params.cfg.oooPolicy with
  | off => exact ⟨_, rfl⟩
  | quick => exact .ite harm hreplay
  | delayed => exact ⟨_, rfl⟩

/-! ### The decode of a status byte (42_status_decoder.md) -/

theorem State.Alike.extFetched (h : s.Alike u) : (s.extFetched i).Alike (u.extFetched i) := by
  obtain ⟨c, rfl⟩ := h
  exact ⟨_, rfl⟩

theorem State.Alike.freeWbufs (h : s.Alike u) : (s.freeWbufs i).Alike (u.freeWbufs i) := by
  obtain ⟨c, rfl⟩ := h
  exact .ite ⟨_, rfl⟩ ⟨_, rfl⟩

theorem State.Alike.logExt {level : LogLevel} {what : LogWhat} (h : s.Alike u) :
    (s.logExt i b level what).Alike (u.logExt i b level what) := by
  obtain ⟨c, rfl⟩ := h
  exact .ite ⟨_, rfl⟩ ⟨_, rfl⟩

theorem State.Alike.successBuffers (h : s.Alike u) : (s.successBuffers i b).Alike (u.successBuffers i b) := by
  have hf : (s.freeWbufs i).Alike (u.freeWbufs i) := h.freeWbufs
  obtain ⟨c, rfl⟩ := h
  exact .ite (.ite ⟨_, rfl⟩ ⟨_, rfl⟩) hf

theorem State.Alike.success (h : s.Alike u) : (s.success i b).Alike (u.success i b) := by
  have hb : (s.successBuffers i b).Alike (u.successBuffers i b) := h.successBuffers
  rw [State.success, State.success]
  generalize s.successBuffers i b = v, u.successBuffers i b = w at hb
  obtain ⟨c, rfl⟩ := hb
  exact .modTok (.ite ⟨_, rfl⟩ ⟨_, rfl⟩)

theorem State.Alike.earlyCommit (h : s.Alike u) : (s.earlyCommit i).Alike (u.earlyCommit i) := by
  obtain ⟨c, rfl⟩ := h
  exact .ite ⟨_, rfl⟩ ⟨_, rfl⟩

theorem State.Alike.progress {k : StatusCode} (h : s.Alike u) : (s.progress i k now).Alike (u.progress i k now) := by
  obtain ⟨c, rfl⟩ := h
  have ha : (s.modTok i fun t => { t.arm now (s.params.cfg.tmo t.cls (progressStage k)) with stage := progressStage k }).Alike
      (({ s with stats := c } : State).modTok i fun t =>
        { t.arm now (s.params.cfg.tmo t.cls (progressStage k)) with stage := progressStage k }) := ⟨_, rfl⟩
  have hf := ha.freeWbufs (i := i) |>.earlyCommit (i := i)
  exact .ite ⟨_, rfl⟩ (.ite hf ha)

theorem State.Alike.unknownHw (h : s.Alike u) : (s.unknownHw i).Alike (u.unknownHw i) := by
  obtain ⟨c, rfl⟩ := h
  exact .ite ⟨_, rfl⟩ ⟨_, rfl⟩

/-- The handling of a fault subtype (R314-R319). -/
theorem State.Alike.decodeFault (h : s.Alike u) (f : Option FaultCode) : (s.decodeFault i f).Alike (u.decodeFault i f) := by
  have hu : (s.unknownHw i).Alike (u.unknownHw i) := h.unknownHw
  obtain ⟨c, rfl⟩ := h
  cases f with
  | none => exact ⟨_, rfl⟩
  | some f =>
    cases f with
    | fatal | ecc | cmdOffset => exact ⟨_, rfl⟩
    | xsum | wepTimeout => exact .ite ⟨_, rfl⟩ ⟨_, rfl⟩
    | unknownCmd => exact hu

/-- ILLEGAL_CMD without EXT (R314). -/
theorem State.decIllegal_bare (s : State) (hext : s.params.layout.stExtend b = false) :
    s.decIllegal i b = (s.count fun c => { c with illegal := c.illegal + 1 }).setResult i .abort .illegalNoExt := if_pos hext

theorem State.Alike.decIllegal (h : s.Alike u) : (s.decIllegal i b).Alike (u.decIllegal i b) := by
  obtain ⟨c, rfl⟩ := h
  by_cases hext : s.params.layout.stExtend b = true
  · rw [State.decIllegal_ext rfl hext, State.decIllegal_ext rfl (by exact hext)]
    exact .decodeFault ⟨_, rfl⟩ _
  · replace hext := Bool.eq_false_iff.2 hext
    rw [State.decIllegal_bare s hext, State.decIllegal_bare { s with stats := c } hext]
    exact ⟨_, rfl⟩

theorem State.Alike.decExeError (h : s.Alike u) : (s.decExeError i b).Alike (u.decExeError i b) := by
  have hl := h.count (f := fun c => { c with exe := c.exe + 1 }) |>.logExt (i := i) (b := b) (level := .err) (what := .exeError)
  obtain ⟨c, rfl⟩ := h
  exact .ite hl.abortHard ⟨_, rfl⟩

theorem State.Alike.decXsumError (h : s.Alike u) : (s.decXsumError i).Alike (u.decXsumError i) := by
  have hu := h.count (f := fun c => { c with xsum := c.xsum + 1 }) |>.modCtr (i := i) (f := fun k => { k with xsum := k.xsum + 1 })
    |>.unknownHw (i := i)
  obtain ⟨c, rfl⟩ := h
  exact .ite ⟨_, rfl⟩ hu

theorem State.Alike.decDevWarning (h : s.Alike u) : (s.decDevWarning i b now).Alike (u.decDevWarning i b now) := by
  have hl := h.count (f := fun c => { c with warning := c.warning + 1 }) |>.logExt (i := i) (b := b) (level := .warn) (what := .devWarning)
  rw [State.decDevWarning, State.decDevWarning]
  generalize (s.count _).logExt i b _ _ = v, (u.count _).logExt i b _ _ = w at hl ⊢
  obtain ⟨c, rfl⟩ := hl
  exact ⟨_, rfl⟩

theorem State.Alike.decDupError (h : s.Alike u) : (s.decDupError i).Alike (u.decDupError i) := by
  have hf := h.count (f := fun c => { c with oooDup := c.oooDup + 1 }) |>.freeWbufs (i := i)
  obtain ⟨c, rfl⟩ := h
  exact .ite (.modTok (.ite hf ⟨_, rfl⟩)) (.ite ⟨_, rfl⟩ ⟨_, rfl⟩)

theorem State.Alike.decOoo (h : s.Alike u) : (s.decOoo i b now).Alike (u.decOoo i b now) := by
  have hs := h.count (f := fun c => { c with ooo := c.ooo + 1 }) |>.modTok (j := i) (f := fun t => { t with seenInHw := true })
  have ho {x : Word} := hs.extFetched (i := i) |>.oooHandle (i := i) (x := x) (now := now)
  obtain ⟨c, rfl⟩ := h
  exact .ite ⟨_, rfl⟩ (.ite ho ⟨_, rfl⟩)

theorem State.Alike.decodeCode {k : StatusCode} (h : s.Alike u) : (s.decodeCode i b now k).Alike (u.decodeCode i b now k) := by
  cases k with
  | queued | received | pending | sequenced => exact h.progress
  | collision => exact h.count.setResult
  | fieldError => exact h.count.modTok.setResult
  | illegalCmd => exact h.decIllegal
  | exeError => exact h.decExeError
  | eccError =>
    obtain ⟨c, rfl⟩ := h
    exact .ite ⟨_, rfl⟩ ⟨_, rfl⟩
  | unknownHw => exact h.unknownHw
  | xsumError => exact h.decXsumError
  | devWarning => exact h.decDevWarning
  | dupError => exact h.decDupError
  | ooo => exact h.decOoo

theorem State.decodeStatus_eq (s : State) (i : Nat) (b : Byte) (now : Nat) :
    s.decodeStatus i b now =
      if s.params.layout.stSuccess b = true then (s.modTok i fun t => { t with oooMissing := false }).success i b
      else (s.params.layout.statusOf (s.params.layout.stCode b)).elim
        ((s.modTok i fun t => { t with oooMissing := false }).decReserved i)
        ((s.modTok i fun t => { t with oooMissing := false }).decodeCode i b now) := by
  rw [State.decodeStatus]
  simp only [State.modTok_params]
  cases s.params.layout.statusOf (s.params.layout.stCode b) with
  | none => rfl
  | some c => cases c <;> rfl

theorem State.Alike.decodeStatus (h : s.Alike u) : (s.decodeStatus i b now).Alike (u.decodeStatus i b now) := by
  have hm := h.modTok (j := i) (f := fun t => { t with oooMissing := false })
  have hd {k : StatusCode} := hm.decodeCode (i := i) (b := b) (now := now) (k := k)
  have hs := hm.success (i := i) (b := b)
  obtain ⟨c, rfl⟩ := h
  rw [State.decodeStatus_eq, State.decodeStatus_eq]
  exact .ite hs (.elim _ ⟨_, rfl⟩ fun _ => hd)

/-! ### POLL (42_status_decoder.md R280-R285) -/

theorem State.pollStatus_eq (s : State) (i now : Nat) :
    s.pollStatus i now = (s.changedStatus i).elim s fun b =>
      if (s.observe i b now).params.layout.stPolarity b = ((s.observe i b now).tokAt i).odd then
        (s.observe i b now).decodeStatus i b now
      else s.observe i b now := by
  rw [State.pollStatus]
  cases s.changedStatus i <;> rfl

theorem State.Alike.pollStatus (h : s.Alike u) : (s.pollStatus i now).Alike (u.pollStatus i now) := by
  obtain ⟨c, rfl⟩ := h
  have ho (b : Byte) : (s.observe i b now).Alike (({ s with stats := c } : State).observe i b now) := ⟨_, rfl⟩
  rw [State.pollStatus_eq, State.pollStatus_eq]
  exact .elim _ ⟨_, rfl⟩ fun b => .ite (ho b).decodeStatus (ho b)

theorem State.Alike.whilePending {f : State → State} (h : s.Alike u) (hf : (f s).Alike (f u)) :
    (s.whilePending i f).Alike (u.whilePending i f) := by
  obtain ⟨c, rfl⟩ := h
  exact .ite hf ⟨_, rfl⟩

theorem State.Alike.finish (h : s.Alike u) : (s.finish i).Alike (u.finish i) := by
  obtain ⟨c, rfl⟩ := h
  exact .ite ⟨_, rfl⟩ ⟨_, rfl⟩

theorem State.Alike.pollActive (h : s.Alike u) : (s.pollActive i now).Alike (u.pollActive i now) := by
  have hs : (s.pollStatus i now).Alike (u.pollStatus i now) := h.pollStatus
  have hl := hs.whilePending (i := i) (f := fun s => s.lostCheck i now) hs.lostCheck
  exact .finish (hl.whilePending hl.timeoutCheck)

/-! ### Launches (41_token_pool.md R251, R256) -/

theorem State.Alike.launch (h : s.Alike u) : (s.launch i now).Alike (u.launch i now) := by
  obtain ⟨c, rfl⟩ := h
  cases hf : s.filterAllows (s.launchWord i)
  · rw [s.launch_denied i now hf, State.launch_denied _ i now (by exact hf)]
    exact ⟨_, rfl⟩
  · rw [s.launch_allowed i now hf, State.launch_allowed _ i now (by exact hf)]
    exact ⟨_, rfl⟩

/-! ### The operations of the port -/

/-- One error, or effects that are alike. -/
inductive AlikeResults : Except OpError State → Except OpError State → Prop where
  | error (e : OpError) : AlikeResults (.error e) (.error e)
  | ok {s u : State} (h : s.Alike u) : AlikeResults (.ok s) (.ok u)

section
variable {r r' k k' : Except OpError State}

theorem AlikeResults.ite {p : Prop} [Decidable p] (h : AlikeResults r r') (h' : AlikeResults k k') :
    AlikeResults (if p then r else k) (if p then r' else k') := by
  split
  · exact h
  · exact h'

theorem AlikeResults.answer {c : Stats} (h : AlikeResults r r') (e : s.answer r = .next t) :
    ∃ c', ({ s with stats := c } : State).answer r' = .next { t with stats := c' } := by
  cases h with
  | error x => cases e; exact ⟨c, rfl⟩
  | ok h =>
    cases e
    obtain ⟨c', rfl⟩ := h
    exact ⟨c', rfl⟩

end

theorem State.Alike.opAlloc {kind : Byte} {carry : Nat} (h : s.Alike u) : AlikeResults (s.opAlloc kind carry) (u.opAlloc kind carry) := by
  obtain ⟨c, rfl⟩ := h
  exact .ite (.error _) (.ok ⟨_, rfl⟩)

theorem State.Alike.opAllocId {kind : Byte} (h : s.Alike u) : AlikeResults (s.opAllocId i kind) (u.opAllocId i kind) := by
  obtain ⟨c, rfl⟩ := h
  exact .ite (.error _) (.ite (.error _) (.ok ⟨_, rfl⟩))

theorem State.Alike.opBuild {req : BuildReq} (h : s.Alike u) : AlikeResults (s.opBuild i req) (u.opBuild i req) := by
  obtain ⟨c, rfl⟩ := h
  refine .ite (.error _) (.ite (.error _) (.ite (.error _) ?_))
  dsimp only
  cases buildWord s.params.layout s.params.cfg req with
  | error e => exact .error e
  | ok W => exact .ok ⟨_, rfl⟩

theorem State.Alike.opIssue {d : Option (BitVec 5)} {x : BitVec 128} (h : s.Alike u) :
    AlikeResults (s.opIssue i d x now) (u.opIssue i d x now) := by
  obtain ⟨c, rfl⟩ := h
  have hl : (((s.atTime now).modTok i fun t => { t with dealloc := d, xsum := x }).launch i now).Alike _ :=
    State.Alike.launch ⟨c, rfl⟩
  exact .ite (.error _) (.ite (.error _) (.ite (.error _) (.ite (.error _) (.ok hl))))

theorem State.Alike.rebind {req : Option BuildReq} (h : s.Alike u) : AlikeResults (s.rebind i req) (u.rebind i req) := by
  obtain ⟨c, rfl⟩ := h
  cases req with
  | none => exact .ok ⟨_, rfl⟩
  | some req =>
    refine .ite (.error _) ?_
    dsimp only
    cases buildWord s.params.layout s.params.cfg req with
    | error e => exact .error e
    | ok W => exact .ok ⟨_, rfl⟩

theorem State.Alike.opReissue {req : Option BuildReq} (h : s.Alike u) : AlikeResults (s.opReissue i req now) (u.opReissue i req now) := by
  obtain ⟨c, rfl⟩ := h
  refine .ite (.error _) (.ite (.error _) (.ite (.error _) (.ite (.error _) (.ite (.ok ⟨_, rfl⟩) ?_))))
  have hr : AlikeResults ((s.atTime now).rebind i req) ((({ s with stats := c } : State).atTime now).rebind i req) :=
    State.Alike.rebind ⟨c, rfl⟩
  generalize (s.atTime now).rebind i req = r, (({ s with stats := c } : State).atTime now).rebind i req = r' at hr
  cases hr with
  | error e => exact .error e
  | ok h => exact .ok h.modTok.launch

theorem State.Alike.opDetach (h : s.Alike u) : AlikeResults (s.opDetach i) (u.opDetach i) := by
  obtain ⟨c, rfl⟩ := h
  exact .ite (.error _) (.ite (.error _) (.ok ⟨_, rfl⟩))

theorem State.Alike.opRelease (h : s.Alike u) : AlikeResults (s.opRelease i) (u.opRelease i) := by
  obtain ⟨c, rfl⟩ := h
  exact .ite (.error _) (.ite (.error _) (.ite (.error _) (.ok ⟨_, rfl⟩)))

theorem State.Alike.opRefresh {y : TokenType} (h : s.Alike u) : AlikeResults (s.opRefresh y now) (u.opRefresh y now) := by
  obtain ⟨c, rfl⟩ := h
  exact .ite (.error _) (.ok (by cases y <;> exact ⟨_, rfl⟩))

theorem State.Alike.opPoll (h : s.Alike u) : AlikeResults (s.opPoll i now) (u.opPoll i now) := by
  obtain ⟨c, rfl⟩ := h
  have hp : ((s.atTime now).pollActive i now).Alike ((({ s with stats := c } : State).atTime now).pollActive i now) :=
    State.Alike.pollActive ⟨c, rfl⟩
  exact .ite (.error _) (.ite (.error _) (.ite (.ok ⟨_, rfl⟩) (.ite (.error _) (.ok hp))))

end

/-- A command is the encoder run on a request that the statistics have no part in. -/
theorem exec_command_alike (i : Instr) (s : State) (c : Stats) (h : i.opBytes = none) :
    ∃ hd st req, exec i s = s.encodeCommand hd st req
      ∧ exec i { s with stats := c } = ({ s with stats := c } : State).encodeCommand hd st req := by
  cases i
  case opReset | encBuild | encFinalize | alloc | allocId | build | issue | statusRefresh | poll | reissue | detach | release =>
    exact absurd h nofun
  all_goals exact ⟨_, _, _, rfl, rfl⟩

/-- Settles O22: the encoder reads no state but the configuration, RESET forgets the statistics, and every other operation ends in
one error or in effects that are alike. -/
theorem statisticsDecideNothing : Obligations.StatisticsDecideNothing := by
  intro i s t c e
  have hb : s.begin.Alike ({ s with stats := c } : State).begin := ⟨c, rfl⟩
  by_cases hc : i.opBytes = none
  · obtain ⟨hd, st, req, hs, hu⟩ := exec_command_alike i s c hc
    rw [hs, State.encodeCommand_eq] at e
    cases e
    exact ⟨c, hu.trans (State.encodeCommand_eq ..)⟩
  cases i
  case opReset => cases e; exact ⟨_, rfl⟩
  case encBuild req =>
    rw [show exec (.encBuild req) s = _ from execEncBuild_eq s req] at e
    cases e
    exact ⟨c, execEncBuild_eq _ req⟩
  case encFinalize => cases e; exact ⟨_, rfl⟩
  case alloc => exact hb.opAlloc.answer e
  case allocId => exact hb.opAllocId.answer e
  case build => exact hb.opBuild.answer e
  case issue => exact hb.opIssue.answer e
  case statusRefresh => exact hb.opRefresh.answer e
  case poll => exact hb.opPoll.answer e
  case reissue => exact hb.opReissue.answer e
  case detach => exact hb.opDetach.answer e
  case release => exact hb.opRelease.answer e
  all_goals exact absurd rfl hc

end Sys2Proof.Machine
end
